-- ==== Sys2Proof/Word.lean ====
section
/-! DEFINITION. The bytes and words of PDS-RC (spec/00_scope.md R9). -/

namespace Sys2Proof

/-- A byte: 8 bits, bit 7 the most significant (spec/00_scope.md R9, spec/20_memory.md R61). -/
abbrev Byte := BitVec 8

/-- The 64-bit command word `W` of the command port (spec/30_encoding.md R110). -/
abbrev Word := BitVec 64

end Sys2Proof
end

