-- ==== Sys2Proof/Config.lean ====
section
/-! DEFINITION. The implementation parameters of PDS-RC as types (spec/00_scope.md R4, spec/70_reset_and_hazards.md R322).
The values the spec gives as defaults stand in Machine/Params.lean. Every parameter is a constant of one machine: State carries
them in its field `cfg`, so a statement about every state is a statement about every value of every parameter (log entry 7). -/

namespace Sys2Proof

/-- ConnectionMode, CSR0 `MODE`: 0 = USB, 1 = Bluetooth (spec/10_state.md R41). -/
inductive ConnMode where
  | usb
  | bt
deriving DecidableEq, Repr

/-- `OUTMAP`: the USB offset of every output field (spec/30_encoding.md R103, R104). The seventh force of a trigger has an
entry of its own, so that the other reading of the source's "+2" is a value of this parameter too (spec/91_not_in_source.md N2). -/
structure OutMap where
  flag0 : Nat
  flag1 : Nat
  motorR : Nat
  motorL : Nat
  micLed : Nat
  micMute : Nat
  trigRMode : Nat
  trigRForce0 : Nat
  trigRForce6 : Nat
  trigLMode : Nat
  trigLForce0 : Nat
  trigLForce6 : Nat
  ledOption : Nat
  pulseOption : Nat
  brightness : Nat
  player : Nat
  rgb : Nat
deriving DecidableEq, Repr

/-- The conventions of the checksum (spec/41_checksum.md R171, spec/00_scope.md R4): the polynomial's numeral in the bit order
`reflected` selects, the seed in the running-value convention, the two complements, and how many leading bytes are covered. -/
structure CrcParams where
  poly : BitVec 32
  seed : BitVec 32
  reflected : Bool
  complementIn : Bool
  complementOut : Bool
  cover : Nat
deriving DecidableEq, Repr

/-- `MALFORMED_POLICY` (spec/45_sequencer.md R266). -/
inductive MalformedPolicy where
  | skipCycle
  | terminate
deriving DecidableEq, Repr

/-- `SNAPSHOT`: the granularity at which ENCODE sees PendingOutput (spec/20_memory.md R72). -/
inductive SnapshotPolicy where
  | perField
  | whole
deriving DecidableEq, Repr

/-- The parameters of one instance (spec/00_scope.md R4). -/
structure Config where
  outMap : OutMap
  btByte1 : Byte
  crc : CrcParams
  batteryExposedUsb : Bool
  batteryExposedBt : Bool
  detectReadLen : Nat
  malformedPolicy : MalformedPolicy
  snapshotPolicy : SnapshotPolicy
  /-- `SIGNAL_ORDER`: the indices of the 25 signals in the order software above is to take them (spec/44_change_detector.md R247). -/
  signalOrder : List Nat
deriving DecidableEq, Repr

end Sys2Proof
end

