-- ==== Sys2Proof/Syntax.lean ====
section
/-! DEFINITION. The operations of PDS-RC: one constructor per row of spec/opcode_table.json (spec/30_encoding.md R111, R112). -/

namespace Sys2Proof

/-- Left or right: which motor or which trigger a setter writes (spec/30_encoding.md R111: `sel` 0 = left, 1 = right). -/
inductive Side where
  | left
  | right
deriving DecidableEq, Repr

/-- The operations. The integer operands are the mathematical integers of the abstract operation (spec/30_encoding.md R110);
the command word carries those that fit 16 bits two's complement, which `Instr.wf` says. -/
inductive Instr where
  | start
  | stop
  | setmotor (m : Side) (v : Int)
  | setmode (t : Side) (m : Int)
  | setforce (t : Side) (k : Int) (v : Int)
  | setled (v : Int)
  | setpulse (v : Int)
  | setbright (v : Int)
  | setplayer (v : Int)
  | setrgb (r : Int) (g : Int) (b : Int)
  | setmicled (v : Int)
  | setmicmute (v : Int)
  | detect
  | read
  | decode
  | diff
  | encode
  | write
  | close
  | crc32
deriving DecidableEq, Repr

end Sys2Proof
end

