-- ==== Sys2Proof/WellFormed.lean ====
section
/-! DEFINITION. Which operations a command word can carry: every integer operand fits the word's 16-bit two's complement
field (spec/30_encoding.md R110, `OPERAND_BITS` = 16, spec/92_eei_decisions.md D3). The range checks of the setters are NOT
here: an operand such as 300 is well formed and is rejected by the setter's meaning (spec/43_setters.md R211). -/

namespace Sys2Proof

/-- The operand fits a 16-bit two's complement field: −32768 to 32767 (spec/30_encoding.md R110). -/
def fitsOperand (v : Int) : Bool := decide (-32768 ≤ v ∧ v ≤ 32767)

/-- The operation can be written as a command word or selector. -/
def Instr.wf : Instr → Bool
  | .start => true
  | .stop => true
  | .setmotor _ v => fitsOperand v
  | .setmode _ m => fitsOperand m
  | .setforce _ k v => fitsOperand k && fitsOperand v
  | .setled v => fitsOperand v
  | .setpulse v => fitsOperand v
  | .setbright v => fitsOperand v
  | .setplayer v => fitsOperand v
  | .setrgb r g b => fitsOperand r && fitsOperand g && fitsOperand b
  | .setmicled v => fitsOperand v
  | .setmicmute v => fitsOperand v
  | .detect => true
  | .read => true
  | .decode => true
  | .diff => true
  | .encode => true
  | .write => true
  | .close => true
  | .crc32 => true

end Sys2Proof
end

