-- ==== Sys2Proof/Decode.lean ====
section
/-! DEFINITION. The decoder of command words and selectors, total and rejecting by name, and after it the encoder
(spec/30_encoding.md R110, R111, R113, R114, spec/opcode_table.json). -/

namespace Sys2Proof

/-- What selects an operation, in the three formats of spec/opcode_table.json: CMD, the caller's 64-bit command word
(spec/30_encoding.md R110); SEQ, the three bits of `PHASE` (R111); SUB, the four bits `MODE` and `PHASE` that select the
sub-operation CRC32. -/
inductive Encoded where
  | cmd (w : Word)
  | seq (phase : BitVec 3)
  | sub (sel : BitVec 4)
deriving DecidableEq, Repr

/-- Why an encoding selects no operation. The first two are the illegal command words of spec/30_encoding.md R114. -/
inductive DecodeError where
  /-- `op` is not in the first table of spec/30_encoding.md R111. -/
  | unknownOpcode (op : BitVec 8)
  /-- `sel` is neither 0 nor 1 for SETMOTOR, SETMODE or SETFORCE. -/
  | badSelector (sel : BitVec 8)
  /-- `PHASE` = IDLE selects no micro-operation: it is the cycle boundary (spec/45_sequencer.md R264). -/
  | idlePhase
  /-- A sub-operation selector other than `MODE` = Bluetooth with `PHASE` = ENCODE. -/
  | unknownSubOperation (sel : BitVec 4)
deriving DecidableEq, Repr

/-! ## Fields of the command word (spec/30_encoding.md R110) -/

/-- `W[63:56]`, the opcode. -/
def opField (w : Word) : BitVec 8 := w.extractLsb' 56 8

/-- `W[55:48]`, the selector. -/
def selField (w : Word) : BitVec 8 := w.extractLsb' 48 8

/-- `W[47:32]`, operand a, a 16-bit two's complement integer. -/
def aField (w : Word) : Int := (w.extractLsb' 32 16).toInt

/-- `W[31:16]`, operand b, a 16-bit two's complement integer. -/
def bField (w : Word) : Int := (w.extractLsb' 16 16).toInt

/-- `W[15:0]`, operand c, a 16-bit two's complement integer. -/
def cField (w : Word) : Int := (w.extractLsb' 0 16).toInt

/-- The side a selector names: 0 = left, 1 = right, any other is illegal (spec/30_encoding.md R111, R114). -/
def sideOfSel (sel : BitVec 8) : Except DecodeError Side :=
  if sel = 0#8 then .ok .left
  else if sel = 1#8 then .ok .right
  else .error (.badSelector sel)

/-! ## The decoder -/

/-- The operation a command word selects (spec/30_encoding.md R111, first table; R114 for the rest). Fields an operation
does not use are ignored (R110). -/
def decodeCommand (w : Word) : Except DecodeError Instr :=
  match (opField w).toNat with
  | 0x01 => .ok .start
  | 0x02 => .ok .stop
  | 0x10 => (sideOfSel (selField w)).map (fun m => .setmotor m (aField w))
  | 0x11 => (sideOfSel (selField w)).map (fun t => .setmode t (aField w))
  | 0x12 => (sideOfSel (selField w)).map (fun t => .setforce t (aField w) (bField w))
  | 0x13 => .ok (.setled (aField w))
  | 0x14 => .ok (.setpulse (aField w))
  | 0x15 => .ok (.setbright (aField w))
  | 0x16 => .ok (.setplayer (aField w))
  | 0x17 => .ok (.setrgb (aField w) (bField w) (cField w))
  | 0x18 => .ok (.setmicled (aField w))
  | 0x19 => .ok (.setmicmute (aField w))
  | _ => .error (.unknownOpcode (opField w))

/-- The micro-operation `PHASE` selects (spec/30_encoding.md R111, second table). -/
def decodePhase (p : BitVec 3) : Except DecodeError Instr :=
  match p.toNat with
  | 1 => .ok .detect
  | 2 => .ok .read
  | 3 => .ok .decode
  | 4 => .ok .diff
  | 5 => .ok .encode
  | 6 => .ok .write
  | 7 => .ok .close
  | _ => .error .idlePhase

/-- The sub-operation `MODE` and `PHASE` select: CRC32 exactly when `MODE` = 1 and `PHASE` = 5 (spec/opcode_table.json,
row CRC32; spec/42_encoder.md R190). -/
def decodeSub (sel : BitVec 4) : Except DecodeError Instr :=
  if sel = 0xD#4 then .ok .crc32 else .error (.unknownSubOperation sel)

/-- The operation an encoding selects. -/
def decode : Encoded → Except DecodeError Instr
  | .cmd w => decodeCommand w
  | .seq p => decodePhase p
  | .sub sel => decodeSub sel

/-! ## The encoder, from the same tables -/

/-- The command word with the given fields, `op` in the highest byte (spec/30_encoding.md R110). -/
def commandWord (op sel : BitVec 8) (a b c : BitVec 16) : Word := op ++ sel ++ a ++ b ++ c

/-- The selector of a side (spec/30_encoding.md R111). -/
def selOfSide : Side → BitVec 8
  | .left => 0#8
  | .right => 1#8

/-- An integer operand as a 16-bit two's complement field (spec/30_encoding.md R110). -/
def operandField (v : Int) : BitVec 16 := BitVec.ofInt 16 v

/-- The encoding of an operation; the fields it does not use are zero. -/
def encode : Instr → Encoded
  | .start => .cmd (commandWord 0x01#8 0#8 0#16 0#16 0#16)
  | .stop => .cmd (commandWord 0x02#8 0#8 0#16 0#16 0#16)
  | .setmotor m v => .cmd (commandWord 0x10#8 (selOfSide m) (operandField v) 0#16 0#16)
  | .setmode t m => .cmd (commandWord 0x11#8 (selOfSide t) (operandField m) 0#16 0#16)
  | .setforce t k v => .cmd (commandWord 0x12#8 (selOfSide t) (operandField k) (operandField v) 0#16)
  | .setled v => .cmd (commandWord 0x13#8 0#8 (operandField v) 0#16 0#16)
  | .setpulse v => .cmd (commandWord 0x14#8 0#8 (operandField v) 0#16 0#16)
  | .setbright v => .cmd (commandWord 0x15#8 0#8 (operandField v) 0#16 0#16)
  | .setplayer v => .cmd (commandWord 0x16#8 0#8 (operandField v) 0#16 0#16)
  | .setrgb r g b => .cmd (commandWord 0x17#8 0#8 (operandField r) (operandField g) (operandField b))
  | .setmicled v => .cmd (commandWord 0x18#8 0#8 (operandField v) 0#16 0#16)
  | .setmicmute v => .cmd (commandWord 0x19#8 0#8 (operandField v) 0#16 0#16)
  | .detect => .seq 1#3
  | .read => .seq 2#3
  | .decode => .seq 3#3
  | .diff => .seq 4#3
  | .encode => .seq 5#3
  | .write => .seq 6#3
  | .close => .seq 7#3
  | .crc32 => .sub 0xD#4

/-! ## The pseudo-operations (spec/30_encoding.md R113) -/

/-- `RUMBLE l, r` expands to `SETMOTOR L, l` then `SETMOTOR R, r`. -/
def rumble (l r : Int) : List Instr := [.setmotor .left l, .setmotor .right r]

/-- `SETFORCE t, k, v` for successive slots from `k` on. -/
def setforcesFrom (t : Side) : Int → List Int → List Instr
  | _, [] => []
  | k, v :: vs => .setforce t k v :: setforcesFrom t (k + 1) vs

/-- `SETTRIG t, m, v0, …, v6` expands to `SETMODE t, m` then `SETFORCE t, k, vk` for `k` = 0 to 6 in ascending order. -/
def settrig (t : Side) (m v0 v1 v2 v3 v4 v5 v6 : Int) : List Instr :=
  .setmode t m :: setforcesFrom t 0 [v0, v1, v2, v3, v4, v5, v6]

/-! ## Words numbered as spec/opcode_table.json numbers them -/

/-- The encoding a table word stands for: a word of more than 8 bits is a command word (format CMD, 64 bits); one of at most
8 bits is a selector, matched under the masks of the table: `0xF` for CRC32 (format SUB), `0x7` for the others (format SEQ). -/
def tableEncoding (nbits w : Nat) : Encoded :=
  if nbits ≤ 8 then
    if BitVec.ofNat 4 w = 0xD#4 then .sub (BitVec.ofNat 4 w) else .seq (BitVec.ofNat 3 w)
  else .cmd (BitVec.ofNat 64 w)

/-- The instruction the decoder reads from a table word of `nbits` bits, at most 64; none where it refuses. -/
def decodeTableWord (nbits w : Nat) : Option Instr :=
  if nbits ≤ 64 then
    match decode (tableEncoding nbits w) with
    | .ok i => some i
    | .error _ => none
  else none

end Sys2Proof
end

