-- ==== Sys2Proof/Machine/Params.lean ====
section
/-! DEFINITION. The parameters' values: those the source fixes and the spec's defaults for the open ones
(spec/00_scope.md R4). -/

namespace Sys2Proof.Machine

/-! ## Fixed by the source -/

/-- `IN_LEN`: input report length, 64 bytes for USB and 78 for Bluetooth (spec/00_scope.md R4, spec/30_encoding.md R90). -/
def inLen : ConnMode → Nat
  | .usb => 64
  | .bt => 78

/-- `OUT_LEN`: output report length (spec/00_scope.md R4, spec/30_encoding.md R90). -/
def outLen : ConnMode → Nat
  | .usb => 64
  | .bt => 78

/-- `IN_PREFIX`: bytes dropped at the head of an input report (spec/00_scope.md R4, spec/20_memory.md R62). -/
def inPrefix : ConnMode → Nat
  | .usb => 0
  | .bt => 1

/-- `OUT_SHIFT`: displacement of every field after the marker (spec/00_scope.md R4, spec/30_encoding.md R102). -/
def outShift : ConnMode → Nat
  | .usb => 0
  | .bt => 1

/-- `OUT_MARKER`: byte 0 of an output report (spec/30_encoding.md R100). -/
def outMarker : ConnMode → Byte
  | .usb => 0x02#8
  | .bt => 0x31#8

/-- `MIN_PAYLOAD` (spec/40_decoder.md R132). -/
def minPayload : Nat := 41

/-- `BATTERY_OFFSET` (spec/40_decoder.md R143). -/
def batteryOffset : Nat := 53

/-- `FLAG0` (spec/30_encoding.md R100). -/
def flag0Byte : Byte := 0xFF#8

/-- `FLAG1` = 0x1 | 0x2 | 0x4 | 0x10 | 0x40 (spec/30_encoding.md R100). -/
def flag1Byte : Byte := 0x01#8 ||| 0x02#8 ||| 0x04#8 ||| 0x10#8 ||| 0x40#8

/-- The first offset of `CRC_TAIL`: the last four of 78 bytes (spec/30_encoding.md R102). -/
def crcTail : Nat := 74

/-- The size of INBUF and of OUTBUF (spec/10_state.md R48, R49). -/
def bufferSize : Nat := 78

/-! ## Defaults of the open parameters -/

/-- The default `OUTMAP` (spec/30_encoding.md R104). PRESUMED by the spec itself: log entry 6. -/
def defaultOutMap : OutMap :=
  { flag0 := 1, flag1 := 2, motorR := 3, motorL := 4, micLed := 9, micMute := 10,
    trigRMode := 11, trigRForce0 := 12, trigRForce6 := 20,
    trigLMode := 22, trigLForce0 := 23, trigLForce6 := 31,
    ledOption := 39, pulseOption := 42, brightness := 43, player := 44, rgb := 45 }

/-- The default conventions of the checksum (spec/41_checksum.md R171, R172). PRESUMED by the spec itself: log entry 6. -/
def defaultCrc : CrcParams :=
  { poly := 0xEDB88320#32, seed := 0xEADA2D49#32, reflected := true, complementIn := true, complementOut := true,
    cover := 74 }

/-- The defaults of spec/00_scope.md R4 (log entry 6). -/
def defaultConfig : Config :=
  { outMap := defaultOutMap, btByte1 := 0x02#8, crc := defaultCrc,
    batteryExposedUsb := true, batteryExposedBt := true, detectReadLen := 100,
    malformedPolicy := .skipCycle, snapshotPolicy := .perField, signalOrder := List.range 25 }

/-- `BATTERY_EXPOSED(mode)` (spec/00_scope.md R4, spec/40_decoder.md R132). -/
def batteryExposed (c : Config) : ConnMode → Bool
  | .usb => c.batteryExposedUsb
  | .bt => c.batteryExposedBt

/-! ## What any value of the parameters must satisfy -/

/-- Every USB offset `OUTMAP` assigns, field by field. -/
def outMapOffsets (M : OutMap) : List Nat :=
  [M.flag0, M.flag1, M.motorR, M.motorL, M.micLed, M.micMute,
   M.trigRMode, M.trigRForce0, M.trigRForce0 + 1, M.trigRForce0 + 2, M.trigRForce0 + 3, M.trigRForce0 + 4,
   M.trigRForce0 + 5, M.trigRForce6,
   M.trigLMode, M.trigLForce0, M.trigLForce0 + 1, M.trigLForce0 + 2, M.trigLForce0 + 3, M.trigLForce0 + 4,
   M.trigLForce0 + 5, M.trigLForce6,
   M.ledOption, M.pulseOption, M.brightness, M.player, M.rgb, M.rgb + 1, M.rgb + 2]

/-- The constraints of spec/30_encoding.md R103 on `OUTMAP`: every field lies after the marker and inside the 64-byte report
(so that no field reaches Bluetooth offsets 74 to 77), the seventh force lies at `force0 + 8`, no two fields share an offset.
DESIGN CHOICE (safe), log entry 19: as in R103's list, another field may lie at a trigger's gap bytes `force0 + 6` and
`force0 + 7`; they are then that field's and not zero. -/
def outMapOk (M : OutMap) : Bool :=
  (outMapOffsets M).all (fun k => decide (1 ≤ k ∧ k < 64))
    && decide (M.trigRForce6 = M.trigRForce0 + 8) && decide (M.trigLForce6 = M.trigLForce0 + 8)
    && decide (outMapOffsets M).Nodup

/-- What the spec asks of the parameters: `OUTMAP` as R103, a non-zero seed (spec/41_checksum.md R171), a coverage inside the
buffer, an oversized detection read (spec/45_sequencer.md R262), and an order of all 25 signals (spec/44_change_detector.md R247). -/
def configOk (c : Config) : Bool :=
  outMapOk c.outMap && decide (c.crc.seed ≠ 0#32) && decide (c.crc.cover ≤ 78) && decide (79 ≤ c.detectReadLen)
    && decide (c.signalOrder.length = 25) && (List.range 25).all (fun i => c.signalOrder.contains i)

end Sys2Proof.Machine
end

