-- ==== Sys2Proof/Machine/State.lean ====
section
/-! DEFINITION. The state of PDS-RC as plain data, the reasons a step can stop, and the state after reset
(spec/10_state.md, spec/60_exceptions.md R310, R311, spec/70_reset_and_hazards.md R321). INVENTORY.md lists every field. -/

namespace Sys2Proof.Machine

/-! ## ControllerState, the CS register file (spec/10_state.md R20 to R31) -/

/-- The accelerometer: three 16-bit two's complement values (R27). -/
structure Accel where
  x : BitVec 16
  y : BitVec 16
  z : BitVec 16
deriving DecidableEq, Repr

/-- The gyroscope: three 16-bit two's complement values (R27). -/
structure Gyro where
  pitch : BitVec 16
  yaw : BitVec 16
  roll : BitVec 16
deriving DecidableEq, Repr

/-- A touch slot (R28). -/
structure TouchSlot where
  id : BitVec 7
  active : Bool
  x : BitVec 12
  y : BitVec 12
deriving DecidableEq, Repr

/-- The battery; `valid` = false is the source's "battery unknown" (R29). -/
structure Battery where
  valid : Bool
  state : BitVec 4
  level : BitVec 7
deriving DecidableEq, Repr

/-- One decoded input report (R20). Sticks are 9 bits two's complement (R25); `touch0` and `touch1` are the spec's
`CS.touch[0]` and `CS.touch[1]`. -/
structure ControllerState where
  lx : BitVec 9
  ly : BitVec 9
  rx : BitVec 9
  ry : BitVec 9
  l2 : Byte
  r2 : Byte
  triangle : Bool
  circle : Bool
  cross : Bool
  square : Bool
  dpadUp : Bool
  dpadDown : Bool
  dpadLeft : Bool
  dpadRight : Bool
  l1 : Bool
  r1 : Bool
  l2btn : Bool
  r2btn : Bool
  l3 : Bool
  r3 : Bool
  share : Bool
  options : Bool
  ps : Bool
  mic : Bool
  tpclick : Bool
  accel : Accel
  gyro : Gyro
  touch0 : TouchSlot
  touch1 : TouchSlot
  bat : Battery
deriving DecidableEq, Repr

/-- A touch slot with every field zero. -/
def TouchSlot.zero : TouchSlot := { id := 0#7, active := false, x := 0#12, y := 0#12 }

/-- Every field zero: the value `PREV` holds at reset, which no rule reads while `PREVV` = 0 (spec/10_state.md R46).
DESIGN CHOICE, log entry 4. -/
def ControllerState.zero : ControllerState :=
  { lx := 0#9, ly := 0#9, rx := 0#9, ry := 0#9, l2 := 0#8, r2 := 0#8,
    triangle := false, circle := false, cross := false, square := false,
    dpadUp := false, dpadDown := false, dpadLeft := false, dpadRight := false,
    l1 := false, r1 := false, l2btn := false, r2btn := false, l3 := false, r3 := false,
    share := false, options := false, ps := false, mic := false, tpclick := false,
    accel := { x := 0#16, y := 0#16, z := 0#16 }, gyro := { pitch := 0#16, yaw := 0#16, roll := 0#16 },
    touch0 := TouchSlot.zero, touch1 := TouchSlot.zero,
    bat := { valid := false, state := 0#4, level := 0#7 } }

/-- The reset value of CS: stick centres 128, everything else zero, battery unknown (spec/10_state.md R31). -/
def ControllerState.reset : ControllerState :=
  { ControllerState.zero with lx := 128#9, ly := 128#9, rx := 128#9, ry := 128#9 }

/-! ## PendingOutput, the PO register file (spec/10_state.md R32 to R40) -/

/-- The touchpad colour, one unit (R34). -/
structure Rgb where
  r : Byte
  g : Byte
  b : Byte
deriving DecidableEq, Repr

/-- A trigger effect: the mode byte and seven force slots (R35, R36). -/
structure TriggerEffect where
  mode : Byte
  force : Vector Byte 7
deriving DecidableEq, Repr

/-- The configuration the encoder serialises (R32). -/
structure PendingOutput where
  motorL : Byte
  motorR : Byte
  ledOption : Byte
  pulseOption : Byte
  brightness : Byte
  player : Byte
  rgb : Rgb
  trigL : TriggerEffect
  trigR : TriggerEffect
  micLed : Bool
  micMute : Bool
deriving DecidableEq, Repr

/-- A trigger effect with mode Off and every force zero. -/
def TriggerEffect.zero : TriggerEffect := { mode := 0#8, force := #v[0#8, 0#8, 0#8, 0#8, 0#8, 0#8, 0#8] }

/-- Every field zero: the default of `RESET_PO` (spec/10_state.md R40). -/
def PendingOutput.zero : PendingOutput :=
  { motorL := 0#8, motorR := 0#8, ledOption := 0#8, pulseOption := 0#8, brightness := 0#8, player := 0#8,
    rgb := { r := 0#8, g := 0#8, b := 0#8 }, trigL := TriggerEffect.zero, trigR := TriggerEffect.zero,
    micLed := false, micMute := false }

/-- A field of PO in the sense of spec/20_memory.md R72: what ENCODE reads as one. -/
inductive PoField where
  | motorL
  | motorR
  | ledOption
  | pulseOption
  | brightness
  | player
  | rgb
  | trigMode (t : Side)
  | trigForce (t : Side) (k : Fin 7)
  | micLed
  | micMute
deriving DecidableEq, Repr

/-- The ten modes of a trigger effect (spec/30_encoding.md R108). -/
inductive TriggerMode where
  | off
  | rigid
  | pulse
  | rigidA
  | rigidB
  | rigidAB
  | pulseA
  | pulseB
  | pulseAB
  | calibration
deriving DecidableEq, Repr

/-! ## Control registers -/

/-- CSR1 `RUN`: 0 = STOPPED_INIT, 1 = RUNNING, 2 = STOPPED_FINAL (spec/10_state.md R42). -/
inductive RunState where
  | stoppedInit
  | running
  | stoppedFinal
deriving DecidableEq, Repr

/-- CSR2 `PHASE`, codes 0 to 7 in this order (spec/10_state.md R43). -/
inductive Phase where
  | idle
  | detect
  | read
  | decode
  | diff
  | encode
  | write
  | close
deriving DecidableEq, Repr

/-! ## Errors and responses (spec/60_exceptions.md R290) -/

/-- The five error classes. -/
inductive ErrClass where
  | malformedReport
  | deviceUnavailable
  | transportIO
  | domainRange
  | illegalCommand
deriving DecidableEq, Repr

/-- What the command port answers: OK (code 0) or an error class (codes 1 to 5). -/
inductive Response where
  | ok
  | error (e : ErrClass)
deriving DecidableEq, Repr

/-- Where an error is raised: in a caller command, whose response carries it, or in the worker's loop, which goes on at a
phase (spec/60_exceptions.md R295, R301). -/
inductive ErrorSite where
  | command
  | loop (next : Phase)
deriving DecidableEq, Repr

/-! ## Ports (spec/60_exceptions.md R310, R311) -/

/-- The transport's answer to a read: a failure, or bytes, of which the port takes at most the length asked for. -/
inductive RxAnswer where
  | failed
  | bytes (bs : List Byte)
deriving DecidableEq, Repr

/-- The transport's answer to a write. -/
inductive TxAnswer where
  | failed
  | done
deriving DecidableEq, Repr

/-- A transaction on the transport ports: a read of at most `maxLen` bytes, a write of a report, a close. -/
inductive Transaction where
  | read (maxLen : Nat)
  | write (report : List Byte)
  | close
deriving DecidableEq, Repr

/-- The command that holds the command port while it blocks (spec/60_exceptions.md R311). -/
inductive Held where
  | start
  | stop
deriving DecidableEq, Repr

/-- Whose step comes next (spec/20_memory.md R70): the caller's, the worker's, or the moment at which the ENCODE in progress
reads one field of PO (spec/20_memory.md R72). -/
inductive Turn where
  | caller
  | worker
  | sample (f : PoField)
deriving DecidableEq, Repr

/-- How far the ENCODE in progress has come: not begun (or none in progress); fields written and CRC32 called; CRC32 returned
its result (spec/42_encoder.md R190, log entry 9). -/
inductive EncodeStage where
  | start
  | crcCalled
  | crcReturned (crc : BitVec 32)
deriving DecidableEq, Repr

/-- The payload of an event: the new value or values of its signal's fields (spec/44_change_detector.md R241, R245). -/
inductive EventPayload where
  | bit (b : Bool)
  | byte (b : Byte)
  | stick (x y : BitVec 9)
  | triple (a b c : BitVec 16)
deriving DecidableEq, Repr

/-- What one read of the status port gives the caller (spec/60_exceptions.md R311): CS and the control and status registers,
and nothing of PO, PREV and the buffers (R303). -/
structure Status where
  cs : ControllerState
  mode : BitVec 1
  modev : Bool
  run : BitVec 2
  phase : BitVec 3
  stopreq : Bool
  err : BitVec 3
  prevv : Bool
  ev : BitVec 25
deriving DecidableEq, Repr

/-! ## The state -/

/-- A byte buffer as the list of its written bytes, offsets strictly rising; an offset not listed holds no value
(spec/10_state.md R51, log entry 5). -/
abbrev Memory := List Host.Cell

/-- Everything the spec gives the machine, its parameters, and its ports. -/
structure State where
  /-- The parameters of this instance (spec/00_scope.md R4, spec/70_reset_and_hazards.md R322); no step writes them. -/
  cfg : Config
  /-- ControllerState (spec/10_state.md R20). -/
  cs : ControllerState
  /-- PendingOutput (spec/10_state.md R32). -/
  po : PendingOutput
  /-- CSR0 `MODE` (spec/10_state.md R41). -/
  mode : ConnMode
  /-- CSR0 `MODEV` (spec/10_state.md R41). -/
  modev : Bool
  /-- CSR1 `RUN` (spec/10_state.md R42). -/
  run : RunState
  /-- CSR2 `PHASE` (spec/10_state.md R43). -/
  phase : Phase
  /-- CSR3 `STOPREQ` (spec/10_state.md R44). -/
  stopreq : Bool
  /-- CSR4 `ERR`: bit 0 MALFORMED, bit 1 DEVICE_UNAVAILABLE, bit 2 TRANSPORT_IO (spec/10_state.md R45). -/
  err : BitVec 3
  /-- `PREV` (spec/10_state.md R46). -/
  prev : ControllerState
  /-- CSR5 `PREVV` (spec/10_state.md R46). -/
  prevv : Bool
  /-- CSR6 `EV` (spec/10_state.md R47). -/
  ev : BitVec 25
  /-- `INBUF` (spec/10_state.md R48). -/
  inbuf : Memory
  /-- `INLEN` (spec/10_state.md R48). -/
  inlen : Nat
  /-- `OUTBUF` (spec/10_state.md R49). -/
  outbuf : Memory
  /-- How far the ENCODE in progress has come (log entry 9). -/
  enc : EncodeStage
  /-- The fields of PO the ENCODE in progress has read already, each once (spec/20_memory.md R72, log entry 10). -/
  latched : List PoField
  /-- The values those reads gave. -/
  latch : PendingOutput
  /-- The input `dev_ok` (spec/60_exceptions.md R310). -/
  devOk : Bool
  /-- The command words the caller will present, first to come first (spec/60_exceptions.md R311). -/
  cmds : List Word
  /-- The command that holds the command port. -/
  held : Option Held
  /-- The responses given, newest first. -/
  resps : List Response
  /-- The transport's answers to the reads to come. -/
  rxQ : List RxAnswer
  /-- The transport's answers to the writes to come. -/
  txQ : List TxAnswer
  /-- The transactions the transport has completed, newest first. -/
  trace : List Transaction
  /-- Whose steps come next, first to come first. -/
  turns : List Turn
deriving DecidableEq, Repr

/-! ## Stops -/

/-- Why the machine stops with a fault. Both are safe: the spec asks for them or the parameters break its constraints. -/
inductive Fault where
  /-- A byte of INBUF or OUTBUF is read that nothing has written. Raised by DECODE, CRC32 and WRITE through
  `Memory.readByte`. Safe: spec/10_state.md R51 and spec/93_implementation_defined.md U22 ask for a fault and no rule makes
  such a read; no state that keeps the invariant of Safety.lean reaches it. -/
  | unwrittenByte (offset : Nat)
  /-- An offset outside a 78-byte buffer or outside the report is accessed. Raised by CRC32 and by ENCODE, only when the
  parameters `CRC_COVER` or `OUTMAP` break spec/30_encoding.md R103, and by DECODE only with an `INLEN` above 78, which
  spec/10_state.md R48 excludes. Safe: spec/20_memory.md R63 gives offsets 0 to 77 only. -/
  | offsetOutsideBuffer (offset : Nat)
deriving DecidableEq, Repr

/-- Why a step has no meaning. -/
inductive Refusal where
  /-- The operation has no meaning yet. Raised by an arm of `exec` only. Safe. No arm raises it. -/
  | notModelled (mnemonic : String)
deriving DecidableEq, Repr

/-! ## Reset -/

/-- The machine right after the creation of a session with the given parameters and `RESET_PO` (spec/10_state.md R51,
spec/70_reset_and_hazards.md R320 to R322). Port queues and records are empty; `dev_ok` is 1 (log entries 1, 2, 3, 13). -/
def State.resetWith (cfg : Config) (resetPo : PendingOutput) : State :=
  { cfg := cfg
    cs := ControllerState.reset
    po := resetPo
    mode := .usb
    modev := false
    run := .stoppedInit
    phase := .idle
    stopreq := false
    err := 0#3
    prev := ControllerState.zero
    prevv := false
    ev := 0#25
    inbuf := []
    inlen := 0
    outbuf := []
    enc := .start
    latched := []
    latch := PendingOutput.zero
    devOk := true
    cmds := []
    held := none
    resps := []
    rxQ := []
    txQ := []
    trace := []
    turns := [] }

/-- The machine right after reset, with the default parameters (spec/00_scope.md R4, spec/10_state.md R51). -/
def State.reset : State := State.resetWith defaultConfig PendingOutput.zero

/-- What a meaning answers. -/
abbrev Answer := Host.Outcome State Fault Refusal

end Sys2Proof.Machine
end

