-- ==== Sys2Proof/Machine/Operands.lean ====
section
/-! DEFINITION. The operand checks of the setters, the fields of PO they reach, and the assembly of every input field from
report bytes (spec/43_setters.md R211 to R221, spec/30_encoding.md R94 to R97, R108, spec/40_decoder.md R131 to R143). -/

namespace Sys2Proof.Machine

/-! ## Operand checks of the setters -/

/-- `in_byte(v)` (spec/43_setters.md R211). -/
def inByte (v : Int) : Bool := decide (0 ≤ v ∧ v ≤ 255)

/-- The slot check of SETFORCE: 0 to 6 (spec/43_setters.md R214). -/
def inSlot (k : Int) : Bool := decide (0 ≤ k ∧ k ≤ 6)

/-- The flag check of SETMICLED and SETMICMUTE: 0 or 1 (spec/43_setters.md R220, R221). -/
def isFlag (v : Int) : Bool := decide (v = 0 ∨ v = 1)

/-- The byte of an operand that passed `inByte`. -/
def byteOf (v : Int) : Byte := BitVec.ofInt 8 v

/-- The flag of an operand that passed `isFlag`. -/
def flagOf (v : Int) : Bool := decide (v = 1)

/-! ## Trigger effect modes (spec/30_encoding.md R108) -/

/-- Base resistance flag Rigid. -/
def rigidFlag : Byte := 0x01#8

/-- Base resistance flag Pulse. -/
def pulseFlag : Byte := 0x02#8

/-- Zone flag A. -/
def zoneA : Byte := 0x20#8

/-- Zone flag B. -/
def zoneB : Byte := 0x04#8

/-- The mode byte: the bitwise combination of the mode's flags; Off is no flag, Calibration is 0xFC. -/
def modeByte : TriggerMode → Byte
  | .off => 0x00#8
  | .rigid => rigidFlag
  | .pulse => pulseFlag
  | .rigidA => rigidFlag ||| zoneA
  | .rigidB => rigidFlag ||| zoneB
  | .rigidAB => rigidFlag ||| zoneA ||| zoneB
  | .pulseA => pulseFlag ||| zoneA
  | .pulseB => pulseFlag ||| zoneB
  | .pulseAB => pulseFlag ||| zoneA ||| zoneB
  | .calibration => 0xFC#8

/-- The ten legal mode bytes. -/
def legalModes : List Byte :=
  [modeByte .off, modeByte .rigid, modeByte .pulse, modeByte .rigidA, modeByte .rigidB, modeByte .rigidAB,
   modeByte .pulseA, modeByte .pulseB, modeByte .pulseAB, modeByte .calibration]

/-- The mode check of SETMODE: the operand is one of the ten values (spec/43_setters.md R213). -/
def isModeByte (m : Int) : Bool := legalModes.any (fun b => decide ((b.toNat : Int) = m))

/-! ## Fields of PO selected by a side or a slot -/

/-- `PO.trig[t]`. -/
def PendingOutput.trig (po : PendingOutput) : Side → TriggerEffect
  | .left => po.trigL
  | .right => po.trigR

/-- `PO.trig[t] <- e`. -/
def PendingOutput.setTrig (po : PendingOutput) (t : Side) (e : TriggerEffect) : PendingOutput :=
  match t with
  | .left => { po with trigL := e }
  | .right => { po with trigR := e }

/-- `PO.motor_l <- b` or `PO.motor_r <- b` (spec/43_setters.md R212). -/
def PendingOutput.setMotor (po : PendingOutput) (m : Side) (b : Byte) : PendingOutput :=
  match m with
  | .left => { po with motorL := b }
  | .right => { po with motorR := b }

/-- `PO.trig[t].mode <- b` (spec/43_setters.md R213). -/
def PendingOutput.setMode (po : PendingOutput) (t : Side) (b : Byte) : PendingOutput :=
  po.setTrig t { po.trig t with mode := b }

/-- `PO.trig[t].force[k] <- b`, for a slot 0 to 6 (spec/43_setters.md R214). -/
def PendingOutput.setForce (po : PendingOutput) (t : Side) (k : Nat) (b : Byte) : PendingOutput :=
  po.setTrig t { po.trig t with force := (po.trig t).force.setIfInBounds k b }

/-- The field `f` of PO takes the value it has in `src` (spec/20_memory.md R72: a field is read as one). -/
def PoField.copy (f : PoField) (src po : PendingOutput) : PendingOutput :=
  match f with
  | .motorL => { po with motorL := src.motorL }
  | .motorR => { po with motorR := src.motorR }
  | .ledOption => { po with ledOption := src.ledOption }
  | .pulseOption => { po with pulseOption := src.pulseOption }
  | .brightness => { po with brightness := src.brightness }
  | .player => { po with player := src.player }
  | .rgb => { po with rgb := src.rgb }
  | .trigMode t => po.setMode t (src.trig t).mode
  | .trigForce t k => po.setForce t k.val ((src.trig t).force[k.val])
  | .micLed => { po with micLed := src.micLed }
  | .micMute => { po with micMute := src.micMute }

/-! ## Input fields (spec/30_encoding.md R94) -/

/-- The payload of a raw report: the report without its prefix, empty when nothing is left (spec/40_decoder.md R131). -/
def payload (mode : ConnMode) (raw : List Byte) : List Byte := raw.drop (inPrefix mode)

/-- `P[i]`. Every offset a rule reads is inside the payload once the length check has passed (spec/40_decoder.md R132); the
zero for other offsets is never used. -/
def byteAt (P : List Byte) (i : Nat) : Byte := P.getD i 0#8

/-- A byte biased by 128, as a 9-bit two's complement integer (spec/40_decoder.md R134, spec/10_state.md R25). -/
def biasedByte (b : Byte) : BitVec 9 := b.setWidth 9 - 128#9

/-- `s16(lo, hi)`: a 16-bit two's complement value, least significant byte first (spec/00_scope.md R10, spec/20_memory.md R60). -/
def s16 (lo hi : Byte) : BitVec 16 := hi ++ lo

/-- The D-pad code: the low nibble of payload byte 8 (spec/40_decoder.md R137). -/
def dpadCode (b : Byte) : Nat := (b &&& 0x0F#8).toNat

/-- A touch slot from the four payload bytes at `o` (spec/40_decoder.md R142). -/
def touchSlotAt (P : List Byte) (o : Nat) : TouchSlot :=
  { id := (byteAt P o &&& 0x7F#8).setWidth 7
    active := decide (byteAt P o &&& 0x80#8 = 0#8)
    x := ((byteAt P (o + 2) &&& 0x0F#8).setWidth 12 <<< 8) ||| (byteAt P (o + 1)).setWidth 12
    y := ((byteAt P (o + 3)).setWidth 12 <<< 4) ||| ((byteAt P (o + 2) &&& 0xF0#8) >>> 4).setWidth 12 }

/-- The battery from its payload byte (spec/40_decoder.md R143, spec/30_encoding.md R96). -/
def batteryOf (b : Byte) : Battery :=
  { valid := true
    state := (b >>> 4).setWidth 4
    level := BitVec.ofNat 7 (min ((b &&& 0x0F#8).toNat * 10 + 5) 100) }

/-- "Battery unknown" (spec/10_state.md R29). -/
def batteryUnknown : Battery := { valid := false, state := 0#4, level := 0#7 }

end Sys2Proof.Machine
end

