-- ==== Sys2Proof/Machine/Flags.lean ====
section
/-! DEFINITION. The flag registers: the sticky bits of `ERR`, the response codes, the register codes, and the event vector
(spec/60_exceptions.md R290, spec/10_state.md R41 to R45, spec/44_change_detector.md R241, R244, R245). -/

namespace Sys2Proof.Machine

/-! ## ERR and the response codes (spec/60_exceptions.md R290) -/

/-- The bit of `ERR` an error class sets; DomainRangeError and IllegalCommand set none (spec/10_state.md R45,
spec/60_exceptions.md R290, R296, R297). -/
def stickyBit : ErrClass → BitVec 3
  | .malformedReport => 0b001#3
  | .deviceUnavailable => 0b010#3
  | .transportIO => 0b100#3
  | .domainRange => 0b000#3
  | .illegalCommand => 0b000#3

/-- `ERR[2]` TRANSPORT_IO, which STOP reports (spec/45_sequencer.md R270). -/
def transportFailed (err : BitVec 3) : Bool := err.getLsbD 2

/-- The code of an error class (spec/60_exceptions.md R290). -/
def errCode : ErrClass → Nat
  | .malformedReport => 1
  | .deviceUnavailable => 2
  | .transportIO => 3
  | .domainRange => 4
  | .illegalCommand => 5

/-- The response code: 0 is OK (spec/60_exceptions.md R290). -/
def responseCode : Response → Nat
  | .ok => 0
  | .error e => errCode e

/-! ## Codes of the control registers (spec/10_state.md R41 to R43) -/

/-- The code of `MODE`. -/
def modeCode : ConnMode → BitVec 1
  | .usb => 0#1
  | .bt => 1#1

/-- The code of `RUN`; 3 is never held. -/
def runCode : RunState → BitVec 2
  | .stoppedInit => 0#2
  | .running => 1#2
  | .stoppedFinal => 2#2

/-- The code of `PHASE`. -/
def phaseCode : Phase → BitVec 3
  | .idle => 0#3
  | .detect => 1#3
  | .read => 2#3
  | .decode => 3#3
  | .diff => 4#3
  | .encode => 5#3
  | .write => 6#3
  | .close => 7#3

/-! ## The event vector (spec/44_change_detector.md R241, R244) -/

/-- For each signal 0 to 24, in this order, whether `fields_i` differ in their values. -/
def changedSignals (p c : ControllerState) : List Bool :=
  [decide (p.square ≠ c.square), decide (p.triangle ≠ c.triangle), decide (p.circle ≠ c.circle),
   decide (p.cross ≠ c.cross), decide (p.dpadUp ≠ c.dpadUp), decide (p.dpadDown ≠ c.dpadDown),
   decide (p.dpadLeft ≠ c.dpadLeft), decide (p.dpadRight ≠ c.dpadRight), decide (p.l1 ≠ c.l1),
   decide (p.l2btn ≠ c.l2btn), decide (p.l3 ≠ c.l3), decide (p.r1 ≠ c.r1), decide (p.r2btn ≠ c.r2btn),
   decide (p.r3 ≠ c.r3), decide (p.lx ≠ c.lx ∨ p.ly ≠ c.ly), decide (p.rx ≠ c.rx ∨ p.ry ≠ c.ry),
   decide (p.l2 ≠ c.l2), decide (p.r2 ≠ c.r2), decide (p.ps ≠ c.ps), decide (p.tpclick ≠ c.tpclick),
   decide (p.mic ≠ c.mic), decide (p.share ≠ c.share), decide (p.options ≠ c.options),
   decide (p.gyro ≠ c.gyro), decide (p.accel ≠ c.accel)]

/-- The event vector of DIFF with a baseline: bit `i` is 1 when signal `i` changed. -/
def evOf (p c : ControllerState) : BitVec 25 := (BitVec.ofBoolListLE (changedSignals p c)).cast rfl

/-- The payload of signal `i`: the new values of `fields_i` (spec/44_change_detector.md R241, R245). -/
def payloadOf (c : ControllerState) (i : Nat) : Option EventPayload :=
  [EventPayload.bit c.square, .bit c.triangle, .bit c.circle, .bit c.cross, .bit c.dpadUp, .bit c.dpadDown,
   .bit c.dpadLeft, .bit c.dpadRight, .bit c.l1, .bit c.l2btn, .bit c.l3, .bit c.r1, .bit c.r2btn, .bit c.r3,
   .stick c.lx c.ly, .stick c.rx c.ry, .byte c.l2, .byte c.r2, .bit c.ps, .bit c.tpclick, .bit c.mic, .bit c.share,
   .bit c.options, .triple c.gyro.pitch c.gyro.yaw c.gyro.roll, .triple c.accel.x c.accel.y c.accel.z][i]?

end Sys2Proof.Machine
end

