-- ==== Sys2Proof/Machine/Ops.lean ====
section
/-! DEFINITION. The shared operations: bytes of a buffer, taking an error, the ports, the moments at which ENCODE reads PO,
the cycle boundary, and what selects the next micro-operation. -/

namespace Sys2Proof.Machine

/-! ## Buffers (spec/20_memory.md R62 to R66) -/

/-- The byte at an offset, none if nothing has written it. -/
def Memory.read : Memory → Nat → Option Byte
  | [], _ => none
  | (k, b) :: m, a => if k = a then some b else Memory.read m a

/-- One byte of a 78-byte buffer: an offset outside it, or a byte nothing has written, faults (spec/10_state.md R51,
spec/93_implementation_defined.md U22). -/
def Memory.readByte (m : Memory) (a : Nat) : Except Fault Byte :=
  if bufferSize ≤ a then .error (.offsetOutsideBuffer a)
  else
    match Memory.read m a with
    | some b => .ok b
    | none => .error (.unwrittenByte a)

/-- The sub-buffer of `n` bytes from offset `a`, bytes taken in ascending offset order. -/
def Memory.readRange (m : Memory) : Nat → Nat → Except Fault (List Byte)
  | _, 0 => .ok []
  | a, n + 1 =>
    match Memory.readByte m a with
    | .error f => .error f
    | .ok b =>
      match Memory.readRange m (a + 1) n with
      | .error f => .error f
      | .ok bs => .ok (b :: bs)

/-- The cells of bytes at successive offsets from `a`. -/
def cellsFrom : Nat → List Byte → Memory
  | _, [] => []
  | a, b :: bs => (a, b) :: cellsFrom (a + 1) bs

/-- Writes bytes at successive offsets from `a`; every other byte keeps its value. -/
def Memory.writeBytes (m : Memory) (a : Nat) (bs : List Byte) : Memory :=
  m.filter (fun c => decide (c.1 < a)) ++ cellsFrom a bs ++ m.filter (fun c => decide (a + bs.length ≤ c.1))

/-- `MemWrite(B, a, 4, v)`: four bytes, least significant first (spec/00_scope.md R10, spec/20_memory.md R60). -/
def littleEndian4 (v : BitVec 32) : List Byte :=
  [v.extractLsb' 0 8, v.extractLsb' 8 8, v.extractLsb' 16 8, v.extractLsb' 24 8]

/-- Offsets strictly rise from a lower bound on. -/
def Memory.risesFrom : Nat → Memory → Bool
  | _, [] => true
  | lo, (k, _) :: m => decide (lo ≤ k) && Memory.risesFrom (k + 1) m

/-- The canonical form of a buffer: offsets strictly rising and inside the 78 bytes. An unlisted byte holds no value, so no
entry can equal it. -/
def Memory.wf (m : Memory) : Bool := Memory.risesFrom 0 m && m.all (fun c => decide (c.1 < bufferSize))

/-! ## Responses and errors (spec/60_exceptions.md R290, R295, R301) -/

/-- The command port answers. -/
def State.respond (s : State) (r : Response) : State := { s with resps := r :: s.resps }

/-- The command port is free for the next command (spec/60_exceptions.md R311). -/
def State.release (s : State) : State := { s with held := none }

/-- TAKING AN ERROR, the one operation behind every `raise` (spec/60_exceptions.md R301): the sticky bit of its class is
set; an error of a caller command is its response, an error of the loop moves `PHASE`. No program counter and no status is
saved, there is no vector, and there is no return operation (R301, R302): `ERR` keeps its bits until reset. -/
def State.takeError (s : State) (e : ErrClass) (site : ErrorSite) : State :=
  match site with
  | .command => { s with err := s.err ||| stickyBit e, resps := .error e :: s.resps }
  | .loop next => { s with err := s.err ||| stickyBit e, phase := next }

/-- The phase the loop goes to after MalformedReportError (spec/45_sequencer.md R266). -/
def malformedNext : MalformedPolicy → Phase
  | .skipCycle => .idle
  | .terminate => .close

/-! ## A setter (spec/43_setters.md R210) -/

/-- All checks first, then all writes, in one step: with the checks passed PO changes and the answer is OK; else nothing is
written and the answer is DomainRangeError. -/
def State.setter (s : State) (checks : Bool) (f : PendingOutput → PendingOutput) : State :=
  if checks then { s with po := f s.po }.respond .ok else s.takeError .domainRange .command

/-! ## The transport (spec/60_exceptions.md R310) -/

/-- The transport has answered a read of at most `maxLen` bytes; `rest` are the answers to come. -/
def State.tookRead (s : State) (maxLen : Nat) (rest : List RxAnswer) : State :=
  { s with rxQ := rest, trace := .read maxLen :: s.trace }

/-- The transport has answered the write of a report; `rest` are the answers to come. -/
def State.tookWrite (s : State) (report : List Byte) (rest : List TxAnswer) : State :=
  { s with txQ := rest, trace := .write report :: s.trace }

/-- CLOSE: the transport is closed, its answer ignored, and the session is over (spec/45_sequencer.md R269). -/
def State.closeSession (s : State) : State :=
  { s with trace := .close :: s.trace, run := .stoppedFinal, phase := .idle }

/-! ## The moments at which ENCODE reads PO (spec/20_memory.md R72) -/

/-- ENCODE reads the field `f` now. It does so only while an ENCODE has begun and not yet written its fields, each field at
most once, and only under `SNAPSHOT` = per_field. -/
def State.sample (s : State) (f : PoField) : State :=
  if s.run = .running ∧ s.phase = .encode ∧ s.enc = .start ∧ s.cfg.snapshotPolicy = .perField ∧ f ∉ s.latched then
    { s with latched := f :: s.latched, latch := f.copy s.po s.latch }
  else s

/-- What ENCODE sees of PO: the value read earlier for every field it has read, the value now for the others. -/
def State.snapshot (s : State) : PendingOutput :=
  s.latched.foldl (fun po f => f.copy s.latch po) s.po

/-! ## The cycle boundary and the selection of the next micro-operation -/

/-- The cycle boundary, `RUN` = RUNNING and `PHASE` = IDLE: the one place that samples `STOPREQ` (spec/45_sequencer.md R264). -/
def State.cycleBoundary (s : State) : State :=
  { s with phase := if s.stopreq then .close else .read }

/-- The micro-operation the worker performs next, as its selector: `PHASE` while `RUN` = RUNNING (spec/45_sequencer.md R263);
DETECT while START holds it in `PHASE` = DETECT with `RUN` = STOPPED_INIT (R261, R262, spec/90_conflicts.md C9); CRC32, selected
by `MODE` and `PHASE`, once ENCODE has called it (spec/42_encoder.md R190). None at the cycle boundary and where no rule gives
the worker a step. -/
def State.selector (s : State) : Option Encoded :=
  match s.run, s.phase with
  | .stoppedInit, .detect => some (.seq (phaseCode .detect))
  | .running, .idle => none
  | .running, .detect => none
  | .running, .encode =>
    if s.enc = .crcCalled ∧ s.mode = .bt then some (.sub (modeCode s.mode ++ phaseCode .encode))
    else some (.seq (phaseCode .encode))
  | .running, p => some (.seq (phaseCode p))
  | .stoppedInit, _ => none
  | .stoppedFinal, _ => none

/-! ## The caller's views (spec/60_exceptions.md R311, spec/44_change_detector.md R247, R249) -/

/-- One indivisible read of the status port. -/
def State.statusPort (s : State) : Status :=
  { cs := s.cs, mode := modeCode s.mode, modev := s.modev, run := runCode s.run, phase := phaseCode s.phase,
    stopreq := s.stopreq, err := s.err, prevv := s.prevv, ev := s.ev }

/-- The event port: the signals that fired in the last DIFF, in `SIGNAL_ORDER`, each with its payload read from CS. -/
def State.eventPort (s : State) : List (Nat × Option EventPayload) :=
  (s.cfg.signalOrder.filter (fun i => s.ev.getLsbD i)).map (fun i => (i, payloadOf s.cs i))

end Sys2Proof.Machine
end

