-- ==== Sys2Proof/Machine/ChangeDetector.lean ====
section
/-! DEFINITION. The change detector DIFF (spec/44_change_detector.md). -/

namespace Sys2Proof.Machine

/-- DIFF: no event without a baseline, else one bit per changed signal; then CS becomes the baseline
(spec/44_change_detector.md R240, R242 to R244). It cannot fail, and the cycle goes on to ENCODE (spec/45_sequencer.md R263). -/
def execDiff (s : State) : Answer :=
  .next { s with ev := if s.prevv then evOf s.prev s.cs else 0#25, prev := s.cs, prevv := true, phase := .encode }

end Sys2Proof.Machine
end

