-- ==== Sys2Proof/Machine/Decoder.lean ====
section
/-! DEFINITION. The report decoder DECODE and its issue in the cycle (spec/40_decoder.md, spec/45_sequencer.md R266). -/

namespace Sys2Proof.Machine

/-- The length check on the payload (spec/40_decoder.md R132). -/
def lengthOk (cfg : Config) (mode : ConnMode) (P : List Byte) : Bool :=
  decide (minPayload ≤ P.length) && (!batteryExposed cfg mode || decide (batteryOffset < P.length))

/-- Every field of ControllerState from a payload that passed the length check (spec/40_decoder.md R134 to R143). Only a mode
that does not expose the battery can pass it without the battery byte; the battery is then unknown (log entry 12). -/
def fieldsOf (P : List Byte) : ControllerState :=
  { lx := biasedByte (byteAt P 1)
    ly := biasedByte (byteAt P 2)
    rx := biasedByte (byteAt P 3)
    ry := biasedByte (byteAt P 4)
    l2 := byteAt P 5
    r2 := byteAt P 6
    triangle := (byteAt P 8).getLsbD 7
    circle := (byteAt P 8).getLsbD 6
    cross := (byteAt P 8).getLsbD 5
    square := (byteAt P 8).getLsbD 4
    dpadUp := [0, 1, 7].contains (dpadCode (byteAt P 8))
    dpadRight := [1, 2, 3].contains (dpadCode (byteAt P 8))
    dpadDown := [3, 4, 5].contains (dpadCode (byteAt P 8))
    dpadLeft := [5, 6, 7].contains (dpadCode (byteAt P 8))
    r3 := (byteAt P 9).getLsbD 7
    l3 := (byteAt P 9).getLsbD 6
    options := (byteAt P 9).getLsbD 5
    share := (byteAt P 9).getLsbD 4
    r2btn := (byteAt P 9).getLsbD 3
    l2btn := (byteAt P 9).getLsbD 2
    r1 := (byteAt P 9).getLsbD 1
    l1 := (byteAt P 9).getLsbD 0
    ps := (byteAt P 10).getLsbD 0
    tpclick := (byteAt P 10).getLsbD 1
    mic := (byteAt P 10).getLsbD 2
    accel := { x := s16 (byteAt P 16) (byteAt P 17)
               y := s16 (byteAt P 18) (byteAt P 19)
               z := s16 (byteAt P 20) (byteAt P 21) }
    gyro := { pitch := s16 (byteAt P 22) (byteAt P 23)
              yaw := s16 (byteAt P 24) (byteAt P 25)
              roll := s16 (byteAt P 26) (byteAt P 27) }
    touch0 := touchSlotAt P 33
    touch1 := touchSlotAt P 37
    bat := if batteryOffset < P.length then batteryOf (byteAt P batteryOffset) else batteryUnknown }

/-- `decode(rawReport, mode)`, the pure function: none is MalformedReportError (spec/40_decoder.md R130, R133). -/
def decodeReport (cfg : Config) (mode : ConnMode) (raw : List Byte) : Option ControllerState :=
  if lengthOk cfg mode (payload mode raw) then some (fieldsOf (payload mode raw)) else none

/-- DECODE as the worker issues it on `INBUF[0..INLEN-1]` under `MODE` (spec/45_sequencer.md R266). On success CS is replaced
as a whole; on MalformedReportError CS is unchanged and the cycle is abandoned (spec/40_decoder.md R145). -/
def execDecode (s : State) : Answer :=
  match Memory.readRange s.inbuf 0 s.inlen with
  | .error f => .fault f
  | .ok raw =>
    match decodeReport s.cfg s.mode raw with
    | some cs => .next { s with cs := cs, phase := .diff }
    | none => .next (s.takeError .malformedReport (.loop (malformedNext s.cfg.malformedPolicy)))

end Sys2Proof.Machine
end

