-- ==== Sys2Proof/Machine/Checksum.lean ====
section
/-! DEFINITION. The checksum module CRC32 (spec/41_checksum.md). -/

namespace Sys2Proof.Machine

/-- `k c`, with `c` computed before `k` is entered: the kernel evaluates a register this way instead of carrying the whole
computation unevaluated. `computed c k = k c` is a lemma of Laws/Checksum.lean. -/
def computed {α : Type} (c : BitVec 32) (k : BitVec 32 → α) : α :=
  match c.toNat with
  | 0 => k 0#32
  | n + 1 => k (BitVec.ofNat 32 (n + 1))

/-- One bit of the computation (spec/41_checksum.md R171, R174): reflected, the register shifts right and bit 0 decides; not
reflected (a value of the parameter the spec does not use, log entry 8), it shifts left and bit 31 decides. -/
def crcBit (p : CrcParams) (c : BitVec 32) : BitVec 32 :=
  if p.reflected then
    if c.getLsbD 0 then (c >>> 1) ^^^ p.poly else c >>> 1
  else
    if c.getLsbD 31 then (c <<< 1) ^^^ p.poly else c <<< 1

/-- `n` bits of the computation. -/
def crcBits (p : CrcParams) : Nat → BitVec 32 → BitVec 32
  | 0, c => c
  | n + 1, c => computed (crcBit p c) (fun c' => crcBits p n c')

/-- One byte is combined into the low 8 bits (not reflected: the high 8 bits) and eight bits are computed. -/
def crcByte (p : CrcParams) (c : BitVec 32) (b : Byte) : BitVec 32 :=
  crcBits p 8 (c ^^^ (if p.reflected then b.setWidth 32 else b.setWidth 32 <<< 24))

/-- Bytes in ascending offset order. -/
def crcBytes (p : CrcParams) : List Byte → BitVec 32 → BitVec 32
  | [], c => c
  | b :: bs, c => computed (crcByte p c b) (fun c' => crcBytes p bs c')

/-- The complement on entry or on exit. -/
def crcMask (on : Bool) : BitVec 32 := if on then 0xFFFFFFFF#32 else 0#32

/-- `crc32(buffer)`, the pure function (spec/41_checksum.md R170, R171). -/
def crc32 (p : CrcParams) (B : List Byte) : BitVec 32 :=
  crcBytes p B (p.seed ^^^ crcMask p.complementIn) ^^^ crcMask p.complementOut

/-- CRC32 as ENCODE calls it, on the first `CRC_COVER` bytes of OUTBUF (spec/41_checksum.md R172). It writes no register: its
result goes back to the ENCODE that called it (R170, spec/10_state.md R50 (e), log entry 9). -/
def execCrc32 (s : State) : Answer :=
  match Memory.readRange s.outbuf 0 s.cfg.crc.cover with
  | .error f => .fault f
  | .ok B => .next { s with enc := .crcReturned (crc32 s.cfg.crc B) }

end Sys2Proof.Machine
end

