-- ==== Sys2Proof/Machine/Encoder.lean ====
section
/-! DEFINITION. The report encoder ENCODE (spec/42_encoder.md). -/

namespace Sys2Proof.Machine

/-- The bytes of a trigger: mode, forces 0 to 5 at six contiguous offsets, force 6 at its own (spec/42_encoder.md R186, R187). -/
def triggerBytes (modeAt force0 force6 : Nat) (e : TriggerEffect) : List (Nat × Byte) :=
  [(modeAt, e.mode), (force0, e.force[0]), (force0 + 1, e.force[1]), (force0 + 2, e.force[2]), (force0 + 3, e.force[3]),
   (force0 + 4, e.force[4]), (force0 + 5, e.force[5]), (force6, e.force[6])]

/-- The microphone LED byte (spec/42_encoder.md R185, spec/30_encoding.md R107). -/
def micLedByte (on : Bool) : Byte := if on then 0x01#8 else 0x00#8

/-- The microphone mute byte (spec/42_encoder.md R185, spec/30_encoding.md R107). -/
def micMuteByte (on : Bool) : Byte := if on then 0x10#8 else 0x00#8

/-- Every byte the encoder assigns after the marker, with its USB offset (spec/42_encoder.md R183 to R189). -/
def fieldBytes (M : OutMap) (po : PendingOutput) : List (Nat × Byte) :=
  [(M.flag0, flag0Byte), (M.flag1, flag1Byte), (M.motorR, po.motorR), (M.motorL, po.motorL),
   (M.micLed, micLedByte po.micLed), (M.micMute, micMuteByte po.micMute)]
  ++ triggerBytes M.trigRMode M.trigRForce0 M.trigRForce6 po.trigR
  ++ triggerBytes M.trigLMode M.trigLForce0 M.trigLForce6 po.trigL
  ++ [(M.ledOption, po.ledOption), (M.pulseOption, po.pulseOption), (M.brightness, po.brightness), (M.player, po.player),
      (M.rgb, po.rgb.r), (M.rgb + 1, po.rgb.g), (M.rgb + 2, po.rgb.b)]

/-- The marker bytes (spec/42_encoder.md R182). -/
def markerBytes (cfg : Config) : ConnMode → List (Nat × Byte)
  | .usb => [(0, outMarker .usb)]
  | .bt => [(0, outMarker .bt), (1, cfg.btByte1)]

/-- Every assigned byte of the report but the checksum, with its offset in OUTBUF: a field at USB offset `k` is at
`k + OUT_SHIFT` (spec/30_encoding.md R102). -/
def assignedBytes (cfg : Config) (mode : ConnMode) (po : PendingOutput) : List (Nat × Byte) :=
  markerBytes cfg mode ++ (fieldBytes cfg.outMap po).map (fun p => (p.1 + outShift mode, p.2))

/-- The first assigned offset outside the report, if any: only an `OUTMAP` that breaks spec/30_encoding.md R103 has one. -/
def offsetOutside (len : Nat) (assigned : List (Nat × Byte)) : Option Nat :=
  (assigned.find? (fun p => decide (len ≤ p.1))).map Prod.fst

/-- The bytes of the report before the checksum: zeros, then the assigned bytes (spec/42_encoder.md R181). -/
def reportBody (cfg : Config) (mode : ConnMode) (po : PendingOutput) : List Byte :=
  (assignedBytes cfg mode po).foldl (fun O p => O.set p.1 p.2) (List.replicate (outLen mode) 0#8)

/-- `encode(pendingOutput, mode)`, the pure function: the whole report, the checksum in the last four bytes of a Bluetooth
report (spec/42_encoder.md R180, R190). -/
def encodeReport (cfg : Config) (mode : ConnMode) (po : PendingOutput) : List Byte :=
  match mode with
  | .usb => reportBody cfg .usb po
  | .bt =>
    (reportBody cfg .bt po).take crcTail ++ littleEndian4 (crc32 cfg.crc ((reportBody cfg .bt po).take cfg.crc.cover))

/-- ENCODE writes its fields into OUTBUF from its snapshot of PO (spec/42_encoder.md R181 to R189). In USB mode the report is
complete; in Bluetooth mode ENCODE calls CRC32 and `PHASE` stays (R190, log entry 9). -/
def State.encodeFields (s : State) : State :=
  match s.mode with
  | .usb =>
    { s with outbuf := Memory.writeBytes s.outbuf 0 (reportBody s.cfg .usb s.snapshot)
             latched := [], latch := PendingOutput.zero, enc := .start, phase := .write }
  | .bt =>
    { s with outbuf := Memory.writeBytes s.outbuf 0 (reportBody s.cfg .bt s.snapshot)
             latched := [], latch := PendingOutput.zero, enc := .crcCalled, phase := .encode }

/-- ENCODE. Begun, it writes its fields (`State.encodeFields`); resumed with the result of CRC32, it writes the checksum tail
and is finished (spec/42_encoder.md R190). PO is not changed (R193). -/
def execEncode (s : State) : Answer :=
  match s.enc with
  | .crcReturned crc =>
    .next { s with outbuf := Memory.writeBytes s.outbuf crcTail (littleEndian4 crc), enc := .start, phase := .write }
  | .start | .crcCalled =>
    match offsetOutside (outLen s.mode) (assignedBytes s.cfg s.mode s.snapshot) with
    | some k => .fault (.offsetOutsideBuffer k)
    | none => .next s.encodeFields

end Sys2Proof.Machine
end

