-- ==== Sys2Proof/Machine/Sequencer.lean ====
section
/-! DEFINITION. The sequencer: START, STOP, DETECT, READ, WRITE, CLOSE (spec/45_sequencer.md). An operation that waits for the
transport leaves the state as it is: the step is taken and nothing has happened (spec/20_memory.md R79). -/

namespace Sys2Proof.Machine

/-- START (spec/45_sequencer.md R261, R274). With the transport open it goes to `PHASE` = DETECT and holds the command port;
DETECT, which it issues, gives its response (log entry 11). -/
def execStart (s : State) : Answer :=
  if s.run ≠ .stoppedInit then .next (s.takeError .illegalCommand .command)
  else if s.devOk then .next { s with phase := .detect, held := some .start }
  else .next ({ s with run := .stoppedFinal }.takeError .deviceUnavailable .command)

/-- STOP (spec/45_sequencer.md R270, R275). While the worker runs it sets `STOPREQ` and holds the command port; it is taken up
again at each turn of the caller and answers once `RUN` = STOPPED_FINAL (log entry 11). -/
def execStop (s : State) : Answer :=
  match s.run with
  | .stoppedInit => .next (s.takeError .illegalCommand .command)
  | .running => .next { s with stopreq := true, held := some .stop }
  | .stoppedFinal =>
    if transportFailed s.err then .next (s.release.takeError .transportIO .command) else .next (s.release.respond .ok)

/-- The mode a detection read of `n` bytes tells (spec/45_sequencer.md R262). -/
def modeOfLength (n : Nat) : Option ConnMode :=
  if n = 64 then some .usb else if n = 78 then some .bt else none

/-- DETECT fails: the error's bit is set, the transport is closed, START answers the error (spec/45_sequencer.md R262). -/
def State.detectFails (s : State) (e : ErrClass) : State :=
  (s.closeSession.release).takeError e .command

/-- DETECT and, on success, the rest of START (spec/45_sequencer.md R261, R262): only the length of the answer is used. -/
def execDetect (s : State) : Answer :=
  match s.rxQ with
  | [] => .next s
  | .failed :: rest => .next ((s.tookRead s.cfg.detectReadLen rest).detectFails .transportIO)
  | .bytes bs :: rest =>
    match modeOfLength (bs.take s.cfg.detectReadLen).length with
    | some m =>
      .next ({ s.tookRead s.cfg.detectReadLen rest with mode := m, modev := true, run := .running, phase := .idle
             }.release.respond .ok)
    | none => .next ((s.tookRead s.cfg.detectReadLen rest).detectFails .malformedReport)

/-- READ (spec/45_sequencer.md R265, R273). A short answer is stored as it is. -/
def execRead (s : State) : Answer :=
  match s.rxQ with
  | [] => .next s
  | .failed :: rest => .next ((s.tookRead (inLen s.mode) rest).takeError .transportIO (.loop .close))
  | .bytes bs :: rest =>
    .next { s.tookRead (inLen s.mode) rest with
            inbuf := Memory.writeBytes s.inbuf 0 (bs.take (inLen s.mode))
            inlen := (bs.take (inLen s.mode)).length
            phase := .decode }

/-- WRITE: exactly `OUT_LEN(MODE)` bytes are handed over in one write (spec/45_sequencer.md R268, R273). -/
def execWrite (s : State) : Answer :=
  match s.txQ with
  | [] => .next s
  | answer :: rest =>
    match Memory.readRange s.outbuf 0 (outLen s.mode) with
    | .error f => .fault f
    | .ok report =>
      match answer with
      | .failed => .next ((s.tookWrite report rest).takeError .transportIO (.loop .close))
      | .done => .next { s.tookWrite report rest with phase := .idle }

/-- CLOSE (spec/45_sequencer.md R269). -/
def execClose (s : State) : Answer := .next s.closeSession

end Sys2Proof.Machine
end

