-- ==== Sys2Proof/Machine/Setters.lean ====
section
/-! DEFINITION. The ten setters of PendingOutput (spec/43_setters.md R210 to R221). -/

namespace Sys2Proof.Machine

/-- SETMOTOR (spec/43_setters.md R212). -/
def execSetmotor (m : Side) (v : Int) (s : State) : Answer :=
  .next (s.setter (inByte v) (fun po => po.setMotor m (byteOf v)))

/-- SETMODE (spec/43_setters.md R213). -/
def execSetmode (t : Side) (m : Int) (s : State) : Answer :=
  .next (s.setter (isModeByte m) (fun po => po.setMode t (byteOf m)))

/-- SETFORCE: the slot is checked before the value, with the same error (spec/43_setters.md R214). -/
def execSetforce (t : Side) (k v : Int) (s : State) : Answer :=
  .next (s.setter (inSlot k && inByte v) (fun po => po.setForce t k.toNat (byteOf v)))

/-- SETLED (spec/43_setters.md R215). -/
def execSetled (v : Int) (s : State) : Answer :=
  .next (s.setter (inByte v) (fun po => { po with ledOption := byteOf v }))

/-- SETPULSE (spec/43_setters.md R216). -/
def execSetpulse (v : Int) (s : State) : Answer :=
  .next (s.setter (inByte v) (fun po => { po with pulseOption := byteOf v }))

/-- SETBRIGHT (spec/43_setters.md R217). -/
def execSetbright (v : Int) (s : State) : Answer :=
  .next (s.setter (inByte v) (fun po => { po with brightness := byteOf v }))

/-- SETPLAYER (spec/43_setters.md R218). -/
def execSetplayer (v : Int) (s : State) : Answer :=
  .next (s.setter (inByte v) (fun po => { po with player := byteOf v }))

/-- SETRGB: three checks, then one write of the colour (spec/43_setters.md R219). -/
def execSetrgb (r g b : Int) (s : State) : Answer :=
  .next (s.setter (inByte r && inByte g && inByte b)
    (fun po => { po with rgb := { r := byteOf r, g := byteOf g, b := byteOf b } }))

/-- SETMICLED (spec/43_setters.md R220). -/
def execSetmicled (v : Int) (s : State) : Answer :=
  .next (s.setter (isFlag v) (fun po => { po with micLed := flagOf v }))

/-- SETMICMUTE (spec/43_setters.md R221). -/
def execSetmicmute (v : Int) (s : State) : Answer :=
  .next (s.setter (isFlag v) (fun po => { po with micMute := flagOf v }))

end Sys2Proof.Machine
end

