-- ==== Sys2Proof/Machine/Dispatch.lean ====
section
/-! DEFINITION. One arm per operation of spec/opcode_table.json. -/

namespace Sys2Proof.Machine

def exec (i : Instr) (s : State) : Host.Outcome State Fault Refusal :=
  match i with
  | .start => Sys2Proof.Machine.execStart s
  | .stop => Sys2Proof.Machine.execStop s
  | .setmotor m v => Sys2Proof.Machine.execSetmotor m v s
  | .setmode t m => Sys2Proof.Machine.execSetmode t m s
  | .setforce t k v => Sys2Proof.Machine.execSetforce t k v s
  | .setled v => Sys2Proof.Machine.execSetled v s
  | .setpulse v => Sys2Proof.Machine.execSetpulse v s
  | .setbright v => Sys2Proof.Machine.execSetbright v s
  | .setplayer v => Sys2Proof.Machine.execSetplayer v s
  | .setrgb r g b => Sys2Proof.Machine.execSetrgb r g b s
  | .setmicled v => Sys2Proof.Machine.execSetmicled v s
  | .setmicmute v => Sys2Proof.Machine.execSetmicmute v s
  | .detect => Sys2Proof.Machine.execDetect s
  | .read => Sys2Proof.Machine.execRead s
  | .decode => Sys2Proof.Machine.execDecode s
  | .diff => Sys2Proof.Machine.execDiff s
  | .encode => Sys2Proof.Machine.execEncode s
  | .write => Sys2Proof.Machine.execWrite s
  | .close => Sys2Proof.Machine.execClose s
  | .crc32 => Sys2Proof.Machine.execCrc32 s

end Sys2Proof.Machine
end

