-- ==== Sys2Proof/Machine/Agents.lean ====
section
/-! DEFINITION. One turn of each agent: what selects the operation, and what happens where none is selected
(spec/20_memory.md R70, spec/45_sequencer.md R263, R264, spec/60_exceptions.md R311). -/

namespace Sys2Proof.Machine

/-- A turn of the caller. While START holds the port the caller waits for DETECT; a STOP that holds it looks again whether the
worker has left its loop; else the next command word is presented, and an illegal one answers IllegalCommand and changes no
state (spec/30_encoding.md R114, spec/60_exceptions.md R297, R311). -/
def callerTurn (s : State) : Answer :=
  match s.held with
  | some .start => .next s
  | some .stop => exec .stop s
  | none =>
    match s.cmds with
    | [] => .next s
    | w :: rest =>
      match decode (.cmd w) with
      | .ok i => exec i { s with cmds := rest }
      | .error _ => .next ({ s with cmds := rest }.takeError .illegalCommand .command)

/-- A turn of the worker: the micro-operation its selector names; at the cycle boundary, the sampling of `STOPREQ`; else no
step (spec/45_sequencer.md R263, R264, R272). -/
def workerTurn (s : State) : Answer :=
  match s.selector with
  | some e =>
    match decode e with
    | .ok i => exec i s
    | .error _ => .next s
  | none => if s.run = .running ∧ s.phase = .idle then .next s.cycleBoundary else .next s

/-- One turn. -/
def takeTurn (t : Turn) (s : State) : Answer :=
  match t with
  | .caller => callerTurn s
  | .worker => workerTurn s
  | .sample f => .next (s.sample f)

/-- `RUN`, `PHASE` and the command port as they stand when the worker is about to perform the micro-operation that the phase
selects: DETECT is performed for START before the loop runs, the others inside the loop. -/
def State.atPhase (s : State) (p : Phase) : State :=
  match p with
  | .detect => { s with run := .stoppedInit, phase := .detect, held := some .start }
  | _ => { s with run := .running, phase := p, enc := .start }

/-- The phase of a code (spec/10_state.md R43). -/
def phaseOfCode (c : BitVec 3) : Phase :=
  match c.toNat with
  | 1 => .detect
  | 2 => .read
  | 3 => .decode
  | 4 => .diff
  | 5 => .encode
  | 6 => .write
  | 7 => .close
  | _ => .idle

/-- The state in which the very next step performs the operation of an encoding: a command word is the next word of a free
command port at the caller's turn; a micro-operation is selected by `RUN` and `PHASE` at the worker's turn; CRC32 is selected
once a Bluetooth ENCODE has written its fields and called it (log entry 15). -/
def State.place (s : State) (e : Encoded) : State :=
  match e with
  | .cmd w => { s with turns := .caller :: s.turns, held := none, cmds := w :: s.cmds }
  | .seq p => { s.atPhase (phaseOfCode p) with turns := .worker :: s.turns }
  | .sub _ => { { s with run := .running, phase := .encode, mode := .bt }.encodeFields with turns := .worker :: s.turns }

end Sys2Proof.Machine
end

