-- ==== Sys2Proof/Machine/Step.lean ====
section
/-! DEFINITION. One step of the machine: the agent whose turn is first in `turns` takes it (spec/20_memory.md R70,
log entry 1). With no turn left no agent moves. -/

namespace Sys2Proof.Machine

/-- One step. -/
def step (s : State) : Host.Outcome State Fault Refusal :=
  match s.turns with
  | [] => .next s
  | t :: rest => takeTurn t { s with turns := rest }

/-- The operation of a table word is the very next one to run (log entry 15). -/
def State.withFetchWord (s : State) (nbits w : Nat) : State := s.place (tableEncoding nbits w)

end Sys2Proof.Machine
end

