-- ==== Sys2Proof/Safety.lean ====
section
/-! DEFINITION. What claims are stated in: the invariant that every step keeps, the end of a run, and waiting for the transport. -/

namespace Sys2Proof.Machine

/-! ## Ranges of the register files -/

/-- CS holds a value a decode or reset can leave (spec/10_state.md R22, R25, R29): sticks −128 to 128, no opposite pair of
directions (hence at most two directions), a level of at most 100, and zero state and level while the battery is unknown. -/
def csOk (c : ControllerState) : Prop :=
  (-128 ≤ c.lx.toInt ∧ c.lx.toInt ≤ 128) ∧ (-128 ≤ c.ly.toInt ∧ c.ly.toInt ≤ 128)
  ∧ (-128 ≤ c.rx.toInt ∧ c.rx.toInt ≤ 128) ∧ (-128 ≤ c.ry.toInt ∧ c.ry.toInt ≤ 128)
  ∧ ¬(c.dpadUp = true ∧ c.dpadDown = true) ∧ ¬(c.dpadLeft = true ∧ c.dpadRight = true)
  ∧ c.bat.level.toNat ≤ 100
  ∧ (c.bat.valid = false → c.bat.state = 0#4 ∧ c.bat.level = 0#7)

/-- Both triggers hold one of the ten mode bytes (spec/10_state.md R35, spec/30_encoding.md R108, R109). -/
def poOk (po : PendingOutput) : Prop := po.trigL.mode ∈ legalModes ∧ po.trigR.mode ∈ legalModes

/-! ## Buffers -/

/-- Every offset below `n` has been written. -/
def listedBelow (m : Memory) (n : Nat) : Prop := ∀ a, a < n → (Memory.read m a).isSome = true

/-- Both buffers are in canonical form and the stored report of `INLEN` bytes is there (spec/10_state.md R48). -/
structure BuffersOk (s : State) : Prop where
  inbufWf : Memory.wf s.inbuf = true
  outbufWf : Memory.wf s.outbuf = true
  inlenBound : s.inlen ≤ bufferSize
  reportStored : listedBelow s.inbuf s.inlen

/-! ## The sequencer -/

/-- What holds of `RUN`, `PHASE`, the flags and the command port in every session (spec/45_sequencer.md R260 to R275). -/
structure SequencerOk (s : State) : Prop where
  /-- Before the loop: IDLE, or DETECT while START is in progress; nothing else has happened. -/
  initPhase : s.run = .stoppedInit → s.phase = .idle ∨ s.phase = .detect
  initFlags : s.run = .stoppedInit → s.modev = false ∧ s.stopreq = false ∧ s.err = 0#3 ∧ s.prevv = false
  /-- DETECT is issued by START only, which holds the port until its answer. -/
  detectForStart : s.phase = .detect ↔ s.held = some .start
  detectOnlyInit : s.phase = .detect → s.run = .stoppedInit
  /-- The loop runs only with the mode known (spec/42_encoder.md R192). -/
  runningMode : s.run = .running → s.modev = true
  runningErr : s.run = .running → s.err.getLsbD 1 = false ∧ (s.err.getLsbD 2 = true → s.phase = .close)
  finalPhase : s.run = .stoppedFinal → s.phase = .idle
  /-- A STOP that waits has set `STOPREQ`, and was issued while the loop ran. -/
  stopWaits : s.held = some .stop → s.stopreq = true ∧ s.run ≠ .stoppedInit
  /-- An ENCODE that has called CRC32 is a Bluetooth one with its fields written. -/
  encStage : s.enc ≠ .start → s.run = .running ∧ s.phase = .encode ∧ s.mode = .bt ∧ listedBelow s.outbuf bufferSize
  /-- WRITE has a whole report to hand over (spec/10_state.md R49). -/
  writeReady : s.phase = .write → listedBelow s.outbuf (outLen s.mode)
  /-- Fields are read ahead only inside an ENCODE, each once. -/
  latchedInEncode : s.latched ≠ [] → s.run = .running ∧ s.phase = .encode ∧ s.enc = .start
  latchedOnce : s.latched.Nodup
  /-- The transport is closed exactly once on every way out of the session, except after DeviceUnavailableError
  (spec/45_sequencer.md R269). -/
  closedOnce : s.trace.count Transaction.close = if s.run = .stoppedFinal ∧ s.err.getLsbD 1 = false then 1 else 0

/-- The invariant of a session. -/
structure Inv (s : State) : Prop where
  config : configOk s.cfg = true
  cs : csOk s.cs
  prev : csOk s.prev
  po : poOk s.po
  latch : poOk s.latch
  buffers : BuffersOk s
  sequencer : SequencerOk s

/-! ## Ends and waits -/

/-- A run is over (spec/45_sequencer.md R276). -/
def runOver (s : State) : Prop := s.run = .stoppedFinal ∧ s.phase = .idle

/-- A good end (spec/45_sequencer.md R276). -/
def goodEnd (s : State) : Prop := runOver s ∧ s.err = 0#3

/-- The worker waits for the transport: a read or a write is issued and not answered (spec/20_memory.md R79). -/
def waitsForTransport (s : State) : Prop :=
  (s.run = .running ∧ s.phase = .read ∧ s.rxQ = []) ∨ (s.run = .running ∧ s.phase = .write ∧ s.txQ = [])
  ∨ (s.run = .stoppedInit ∧ s.phase = .detect ∧ s.rxQ = [])

/-- The ten setters. -/
def isSetter : Instr → Bool
  | .setmotor _ _ => true
  | .setmode _ _ => true
  | .setforce _ _ _ => true
  | .setled _ => true
  | .setpulse _ => true
  | .setbright _ => true
  | .setplayer _ => true
  | .setrgb _ _ _ => true
  | .setmicled _ => true
  | .setmicmute _ => true
  | .start => false
  | .stop => false
  | .detect => false
  | .read => false
  | .decode => false
  | .diff => false
  | .encode => false
  | .write => false
  | .close => false
  | .crc32 => false

end Sys2Proof.Machine
end

