-- ==== Sys2Proof/Certificates/Slice0/Obligations.lean ====
section
/-! DEFINITION. The statements for the provers. Each docstring names the rules of spec/ it formalises. -/

open Sys2Proof Sys2Proof.Machine

/-! ## Reset -/

/-- The reset value of every field of CS, and no decode gives the sticks' reset value (spec/10_state.md R31). The zeros of
the fields the source does not name are the spec's decision D11. -/
def Obligations.ResetControllerStateValues : Prop :=
  (State.reset.cs.lx.toInt = 128 ∧ State.reset.cs.ly.toInt = 128 ∧ State.reset.cs.rx.toInt = 128
    ∧ State.reset.cs.ry.toInt = 128)
  ∧ (State.reset.cs.triangle = false ∧ State.reset.cs.circle = false ∧ State.reset.cs.cross = false
    ∧ State.reset.cs.square = false ∧ State.reset.cs.dpadUp = false ∧ State.reset.cs.dpadDown = false
    ∧ State.reset.cs.dpadLeft = false ∧ State.reset.cs.dpadRight = false ∧ State.reset.cs.l1 = false
    ∧ State.reset.cs.r1 = false ∧ State.reset.cs.l2btn = false ∧ State.reset.cs.r2btn = false
    ∧ State.reset.cs.l3 = false ∧ State.reset.cs.r3 = false ∧ State.reset.cs.share = false
    ∧ State.reset.cs.options = false ∧ State.reset.cs.ps = false ∧ State.reset.cs.mic = false
    ∧ State.reset.cs.tpclick = false)
  ∧ State.reset.cs.touch0 = { id := 0#7, active := false, x := 0#12, y := 0#12 }
  ∧ State.reset.cs.touch1 = { id := 0#7, active := false, x := 0#12, y := 0#12 }
  ∧ State.reset.cs.bat = { valid := false, state := 0#4, level := 0#7 }
  ∧ State.reset.cs.l2 = 0#8 ∧ State.reset.cs.r2 = 0#8
  ∧ State.reset.cs.accel = { x := 0#16, y := 0#16, z := 0#16 }
  ∧ State.reset.cs.gyro = { pitch := 0#16, yaw := 0#16, roll := 0#16 }
  ∧ ∀ (cfg : Config) (mode : ConnMode) (raw : List Byte) (cs : ControllerState), decodeReport cfg mode raw = some cs →
      cs.lx.toInt ≠ 128 ∧ cs.ly.toInt ≠ 128 ∧ cs.rx.toInt ≠ 128 ∧ cs.ry.toInt ≠ 128

/-- Reset with any parameters: PO is RESET_PO, the control registers are zero, no byte of a buffer is written
(spec/10_state.md R40 to R49, R51). The default RESET_PO is all zero (R40, a parameter: log entry 6). RESET_PO is decision
D10 and the codes are decision D24 of the spec. -/
def Obligations.ResetRegistersAndBuffers : Prop :=
  (∀ (cfg : Config) (po : PendingOutput),
    (State.resetWith cfg po).cfg = cfg ∧ (State.resetWith cfg po).po = po
    ∧ (State.resetWith cfg po).mode = .usb ∧ (State.resetWith cfg po).modev = false
    ∧ (State.resetWith cfg po).run = .stoppedInit ∧ (State.resetWith cfg po).phase = .idle
    ∧ (State.resetWith cfg po).stopreq = false ∧ (State.resetWith cfg po).err = 0#3
    ∧ (State.resetWith cfg po).prevv = false ∧ (State.resetWith cfg po).ev = 0#25
    ∧ (State.resetWith cfg po).inlen = 0
    ∧ (∀ a, Memory.read (State.resetWith cfg po).inbuf a = none)
    ∧ ∀ a, Memory.read (State.resetWith cfg po).outbuf a = none)
  ∧ State.reset = State.resetWith defaultConfig PendingOutput.zero

/-- The invariant of a session holds at reset, where the inputs and the model's own fields are as log entries 1 to 4, 9 to 11
and 13 say. -/
def Obligations.ResetMeetsTheInvariant : Prop := Inv State.reset

/-! ## Encodings -/

/-- Decoding the encoding of any well-formed operation gives it back, with every operand (spec/30_encoding.md R110, R111).
The command word is the spec's own binding, decisions D2 and D3. -/
def Obligations.DecodeOfEncodeIsIdentity : Prop := ∀ i : Instr, i.wf = true → decode (encode i) = .ok i

/-- Words written out in spec/95_test_vectors.md section 2.4 and selectors of spec/opcode_table.json decode to the
operations they stand for. The numbers are the spec's decisions D2 and D24. -/
def Obligations.SpecWordsDecodeToTheirOperations : Prop :=
  decode (.cmd 0x100000C800000000#64) = .ok (.setmotor .left 200)
  ∧ decode (.cmd 0x1000FFFF00000000#64) = .ok (.setmotor .left (-1))
  ∧ decode (.cmd 0x1101000300000000#64) = .ok (.setmode .right 3)
  ∧ decode (.cmd 0x1201000100FF0000#64) = .ok (.setforce .right 1 255)
  ∧ decode (.cmd 0x170000AA00BB00CC#64) = .ok (.setrgb 0xAA 0xBB 0xCC)
  ∧ decode (.cmd 0x1900000100000000#64) = .ok (.setmicmute 1)
  ∧ decode (.cmd 0x0100000000000000#64) = .ok .start
  ∧ decode (.seq 4#3) = .ok .diff
  ∧ decode (.sub 0xD#4) = .ok .crc32

/-- Exactly the words of R114 are illegal; presented, such a word is answered IllegalCommand and nothing else changes
(spec/30_encoding.md R114). The error class is the spec's decision D30. -/
def Obligations.IllegalCommandWordsChangeNothing : Prop :=
  (∀ w : Word, (∃ e, decodeCommand w = .error e) ↔
    (opField w ∉ [0x01#8, 0x02#8, 0x10#8, 0x11#8, 0x12#8, 0x13#8, 0x14#8, 0x15#8, 0x16#8, 0x17#8, 0x18#8, 0x19#8]
      ∨ (opField w ∈ [0x10#8, 0x11#8, 0x12#8] ∧ selField w ≠ 0#8 ∧ selField w ≠ 1#8)))
  ∧ ∀ (s : State) (w : Word) (e : DecodeError) (ws : List Word) (ts : List Turn),
      s.turns = .caller :: ts → s.held = none → s.cmds = w :: ws → decodeCommand w = .error e →
      step s = .next { s with turns := ts, cmds := ws, resps := .error .illegalCommand :: s.resps }

/-- Whatever the decoder reads is a well-formed operation, and the bits an operation does not use do not matter: two words
with the same opcode and the same used fields decode alike (spec/30_encoding.md R110, R111). The command word is the spec's
decisions D2 and D3. -/
def Obligations.DecodedOperationsAreWellFormedAndIgnoreUnusedFields : Prop :=
  (∀ (e : Encoded) (i : Instr), decode e = .ok i → i.wf = true)
  ∧ ∀ w w' : Word, opField w = opField w' →
    ((opField w = 0x01#8 ∨ opField w = 0x02#8) → decodeCommand w = decodeCommand w')
    ∧ (opField w ∈ [0x13#8, 0x14#8, 0x15#8, 0x16#8, 0x18#8, 0x19#8] → aField w = aField w' →
        decodeCommand w = decodeCommand w')
    ∧ ((opField w = 0x10#8 ∨ opField w = 0x11#8) → selField w = selField w' → aField w = aField w' →
        decodeCommand w = decodeCommand w')
    ∧ (opField w = 0x12#8 → selField w = selField w' → aField w = aField w' → bField w = bField w' →
        decodeCommand w = decodeCommand w')
    ∧ (opField w = 0x17#8 → aField w = aField w' → bField w = bField w' → cField w = cField w' →
        decodeCommand w = decodeCommand w')

/-! ## A step runs the decoded operation -/

/-- At the caller's turn, with the port free, the next command word is decoded and its operation performed
(spec/60_exceptions.md R311). -/
def Obligations.CallerStepRunsTheDecodedCommand : Prop :=
  ∀ (s : State) (w : Word) (i : Instr) (ws : List Word) (ts : List Turn),
    s.turns = .caller :: ts → s.held = none → s.cmds = w :: ws → decode (.cmd w) = .ok i →
    step s = exec i { s with turns := ts, cmds := ws }

/-- At the worker's turn the micro-operation selected by RUN and PHASE is performed (spec/30_encoding.md R111,
spec/45_sequencer.md R263). Two clauses are the model's choice: that CRC32 is a step of its own, taken once ENCODE has called it
(log entry 9; R263 lists ENCODE as one micro-operation), and that DETECT, in STOPPED_INIT, is taken at a worker's turn to
complete START (log entry 11). -/
def Obligations.WorkerStepRunsTheSelectedMicroOperation : Prop :=
  ∀ (s : State) (ts : List Turn), s.turns = .worker :: ts →
    (∀ e i, s.selector = some e → decode e = .ok i → step s = exec i { s with turns := ts })
    ∧ (s.run = .stoppedInit → s.phase = .detect → step s = exec .detect { s with turns := ts })
    ∧ (s.run = .running →
        (s.phase = .read → step s = exec .read { s with turns := ts })
        ∧ (s.phase = .decode → step s = exec .decode { s with turns := ts })
        ∧ (s.phase = .diff → step s = exec .diff { s with turns := ts })
        ∧ (s.phase = .encode → s.enc ≠ .crcCalled → step s = exec .encode { s with turns := ts })
        ∧ (s.phase = .encode → s.enc = .crcCalled → s.mode = .bt → step s = exec .crc32 { s with turns := ts })
        ∧ (s.phase = .write → step s = exec .write { s with turns := ts })
        ∧ (s.phase = .close → step s = exec .close { s with turns := ts }))

/-- A table word placed by `withFetchWord` is the very next operation the step performs, whatever the state (log entry 15). -/
def Obligations.PlacedTableWordRunsNext : Prop :=
  ∀ (s : State) (nbits w : Nat) (i : Instr), decodeTableWord nbits w = some i →
    ∃ s' : State, step (s.withFetchWord nbits w) = exec i s'
      ∧ s'.turns = s.turns ∧ s'.cmds = s.cmds ∧ s'.cs = s.cs ∧ s'.po = s.po ∧ s'.inbuf = s.inbuf ∧ s'.err = s.err

/-! ## The setters -/

/-- SETMOTOR (spec/43_setters.md R212): its words, the accepted and the rejected values, and the one motor it writes. -/
def Obligations.SetmotorWritesOneMotor : Prop :=
  (∀ w : Word, opField w = 0x10#8 →
    (selField w = 0#8 → decodeCommand w = .ok (.setmotor .left (aField w)))
    ∧ (selField w = 1#8 → decodeCommand w = .ok (.setmotor .right (aField w))))
  ∧ ∀ (s : State) (v : Int),
    (0 ≤ v ∧ v ≤ 255 →
      exec (.setmotor .left v) s
        = .next { s with po := { s.po with motorL := BitVec.ofInt 8 v }, resps := .ok :: s.resps }
      ∧ exec (.setmotor .right v) s
        = .next { s with po := { s.po with motorR := BitVec.ofInt 8 v }, resps := .ok :: s.resps }
      ∧ ((BitVec.ofInt 8 v).toNat : Int) = v)
    ∧ (v < 0 ∨ 255 < v → ∀ m, exec (.setmotor m v) s = .next { s with resps := .error .domainRange :: s.resps })

/-- SETMODE (spec/43_setters.md R213): exactly the ten mode bytes are accepted; the forces and the other trigger stay.
Rejecting every other integer is the spec's decision D14. -/
def Obligations.SetmodeAcceptsExactlyTheTenModes : Prop :=
  (∀ w : Word, opField w = 0x11#8 →
    (selField w = 0#8 → decodeCommand w = .ok (.setmode .left (aField w)))
    ∧ (selField w = 1#8 → decodeCommand w = .ok (.setmode .right (aField w))))
  ∧ ∀ (s : State) (m : Int),
    (m ∈ [0x00, 0x01, 0x02, 0x21, 0x05, 0x25, 0x22, 0x06, 0x26, 0xFC] →
      exec (.setmode .left m) s
        = .next { s with po := { s.po with trigL := { s.po.trigL with mode := BitVec.ofInt 8 m } }
                         resps := .ok :: s.resps }
      ∧ exec (.setmode .right m) s
        = .next { s with po := { s.po with trigR := { s.po.trigR with mode := BitVec.ofInt 8 m } }
                         resps := .ok :: s.resps }
      ∧ ((BitVec.ofInt 8 m).toNat : Int) = m)
    ∧ (m ∉ ([0x00, 0x01, 0x02, 0x21, 0x05, 0x25, 0x22, 0x06, 0x26, 0xFC] : List Int) →
      ∀ t, exec (.setmode t m) s = .next { s with resps := .error .domainRange :: s.resps })

/-- SETFORCE (spec/43_setters.md R214): one slot of one trigger is written; the other slots, the mode and the other trigger
stay. -/
def Obligations.SetforceWritesOneSlot : Prop :=
  (∀ w : Word, opField w = 0x12#8 →
    (selField w = 0#8 → decodeCommand w = .ok (.setforce .left (aField w) (bField w)))
    ∧ (selField w = 1#8 → decodeCommand w = .ok (.setforce .right (aField w) (bField w))))
  ∧ ∀ (s : State) (v : Int),
    (∀ k : Fin 7, 0 ≤ v ∧ v ≤ 255 →
      exec (.setforce .left k.val v) s
        = .next { s with
            po := { s.po with
              trigL := { s.po.trigL with force := s.po.trigL.force.set k.val (BitVec.ofInt 8 v) k.isLt } }
            resps := .ok :: s.resps }
      ∧ exec (.setforce .right k.val v) s
        = .next { s with
            po := { s.po with
              trigR := { s.po.trigR with force := s.po.trigR.force.set k.val (BitVec.ofInt 8 v) k.isLt } }
            resps := .ok :: s.resps }
      ∧ ((BitVec.ofInt 8 v).toNat : Int) = v)
    ∧ (∀ (k : Int) (t : Side), k < 0 ∨ 6 < k ∨ v < 0 ∨ 255 < v →
      exec (.setforce t k v) s = .next { s with resps := .error .domainRange :: s.resps })

/-- SETLED, SETPULSE, SETBRIGHT, SETPLAYER (spec/43_setters.md R215 to R218): any byte is accepted and stored in the one
field of the setter. Accepting any byte is the spec's decision D13. -/
def Obligations.LightSettersWriteTheirOneByte : Prop :=
  (∀ w : Word,
    (opField w = 0x13#8 → decodeCommand w = .ok (.setled (aField w)))
    ∧ (opField w = 0x14#8 → decodeCommand w = .ok (.setpulse (aField w)))
    ∧ (opField w = 0x15#8 → decodeCommand w = .ok (.setbright (aField w)))
    ∧ (opField w = 0x16#8 → decodeCommand w = .ok (.setplayer (aField w))))
  ∧ ∀ (s : State) (v : Int),
    (0 ≤ v ∧ v ≤ 255 →
      exec (.setled v) s = .next { s with po := { s.po with ledOption := BitVec.ofInt 8 v }, resps := .ok :: s.resps }
      ∧ exec (.setpulse v) s = .next { s with po := { s.po with pulseOption := BitVec.ofInt 8 v }, resps := .ok :: s.resps }
      ∧ exec (.setbright v) s = .next { s with po := { s.po with brightness := BitVec.ofInt 8 v }, resps := .ok :: s.resps }
      ∧ exec (.setplayer v) s = .next { s with po := { s.po with player := BitVec.ofInt 8 v }, resps := .ok :: s.resps }
      ∧ ((BitVec.ofInt 8 v).toNat : Int) = v)
    ∧ (v < 0 ∨ 255 < v →
      exec (.setled v) s = .next { s with resps := .error .domainRange :: s.resps }
      ∧ exec (.setpulse v) s = .next { s with resps := .error .domainRange :: s.resps }
      ∧ exec (.setbright v) s = .next { s with resps := .error .domainRange :: s.resps }
      ∧ exec (.setplayer v) s = .next { s with resps := .error .domainRange :: s.resps })

/-- SETRGB (spec/43_setters.md R219): the three channels are written together or, with one bad channel, none. -/
def Obligations.SetrgbWritesAllChannelsOrNone : Prop :=
  (∀ w : Word, opField w = 0x17#8 → decodeCommand w = .ok (.setrgb (aField w) (bField w) (cField w)))
  ∧ ∀ (s : State) (r g b : Int),
    (0 ≤ r ∧ r ≤ 255 → 0 ≤ g ∧ g ≤ 255 → 0 ≤ b ∧ b ≤ 255 →
      exec (.setrgb r g b) s
        = .next { s with
            po := { s.po with rgb := { r := BitVec.ofInt 8 r, g := BitVec.ofInt 8 g, b := BitVec.ofInt 8 b } }
            resps := .ok :: s.resps })
    ∧ (r < 0 ∨ 255 < r ∨ g < 0 ∨ 255 < g ∨ b < 0 ∨ 255 < b →
      exec (.setrgb r g b) s = .next { s with resps := .error .domainRange :: s.resps })

/-- SETMICLED and SETMICMUTE (spec/43_setters.md R220, R221): 0 and 1 are accepted, anything else rejected; the two flags
are independent. Rejecting every other integer is the spec's decision D15. -/
def Obligations.MicrophoneSettersWriteTheirFlag : Prop :=
  (∀ w : Word,
    (opField w = 0x18#8 → decodeCommand w = .ok (.setmicled (aField w)))
    ∧ (opField w = 0x19#8 → decodeCommand w = .ok (.setmicmute (aField w))))
  ∧ ∀ (s : State),
    exec (.setmicled 0) s = .next { s with po := { s.po with micLed := false }, resps := .ok :: s.resps }
    ∧ exec (.setmicled 1) s = .next { s with po := { s.po with micLed := true }, resps := .ok :: s.resps }
    ∧ exec (.setmicmute 0) s = .next { s with po := { s.po with micMute := false }, resps := .ok :: s.resps }
    ∧ exec (.setmicmute 1) s = .next { s with po := { s.po with micMute := true }, resps := .ok :: s.resps }
    ∧ ∀ v : Int, v ≠ 0 → v ≠ 1 →
      exec (.setmicled v) s = .next { s with resps := .error .domainRange :: s.resps }
      ∧ exec (.setmicmute v) s = .next { s with resps := .error .domainRange :: s.resps }

/-- The frame of every setter, in every state of RUN: it always completes; it answers OK, or answers DomainRangeError with
PO as it was; nothing but PO and the response changes, no byte of either buffer among it (spec/43_setters.md R210, R222,
spec/60_exceptions.md R296). R296 is marked by the spec as derived from its rules R295 and R210. -/
def Obligations.SettersChangeNothingButPendingOutput : Prop :=
  ∀ (i : Instr) (s : State), isSetter i = true →
    ∃ (po : PendingOutput) (r : Response),
      exec i s = .next { s with po := po, resps := r :: s.resps }
      ∧ (r = .ok ∨ (r = .error .domainRange ∧ po = s.po))
      ∧ ∀ t, exec i s = .next t → t.err = s.err ∧ t.run = s.run ∧ t.phase = s.phase ∧ t.stopreq = s.stopreq
          ∧ t.cs = s.cs ∧ t.ev = s.ev ∧ t.trace = s.trace
          ∧ (∀ a, Memory.read t.inbuf a = Memory.read s.inbuf a) ∧ ∀ a, Memory.read t.outbuf a = Memory.read s.outbuf a

/-- The pseudo-operations are sequences of separate setters (spec/30_encoding.md R113): the words of RUMBLE, run at two
turns of the caller, set both motors; the words of SETTRIG, run at eight turns, leave the mode and the seven forces; each
setter answers. The pseudo-operations are the spec's own, decision D2. -/
def Obligations.PseudoOperationsRunAsTheirSetters : Prop :=
  (∀ (s : State) (l r : Int) (ws cs : List Word) (ts : List Turn),
    0 ≤ l ∧ l ≤ 255 → 0 ≤ r ∧ r ≤ 255 → (rumble l r).map encode = ws.map Encoded.cmd →
    s.held = none → s.cmds = ws ++ cs → s.turns = .caller :: .caller :: ts →
    Host.Core.run Sys2Proof.core 2 s = .next
      ({ s with cmds := cs, turns := ts, resps := .ok :: .ok :: s.resps
                po := { s.po with motorL := BitVec.ofInt 8 l, motorR := BitVec.ofInt 8 r } } : State))
  ∧ ∀ (s : State) (t : Side) (m v0 v1 v2 v3 v4 v5 v6 : Int) (ws cs : List Word) (ts : List Turn),
    m ∈ [0x00, 0x01, 0x02, 0x21, 0x05, 0x25, 0x22, 0x06, 0x26, 0xFC] →
    (∀ v ∈ [v0, v1, v2, v3, v4, v5, v6], 0 ≤ v ∧ v ≤ 255) →
    (settrig t m v0 v1 v2 v3 v4 v5 v6).map encode = ws.map Encoded.cmd →
    s.held = none → s.cmds = ws ++ cs → s.turns = List.replicate 8 Turn.caller ++ ts →
    Host.Core.run Sys2Proof.core 8 s = .next
      ({ s with cmds := cs, turns := ts, resps := List.replicate 8 Response.ok ++ s.resps
                po := s.po.setTrig t { mode := BitVec.ofInt 8 m
                                       force := #v[BitVec.ofInt 8 v0, BitVec.ofInt 8 v1, BitVec.ofInt 8 v2,
                                                   BitVec.ofInt 8 v3, BitVec.ofInt 8 v4, BitVec.ofInt 8 v5,
                                                   BitVec.ofInt 8 v6] } } : State)

/-! ## START, STOP and the cycle -/

/-- START (spec/45_sequencer.md R261, R274, spec/60_exceptions.md R292): refused outside STOPPED_INIT with no state change;
with the transport not open it ends the session; else it issues DETECT and holds the port. It completes: in STOPPED_INIT, with
the transport open and a detection answer of 64 or 78 bytes, START and the DETECT it issues leave the mode of that length,
RUN = RUNNING at the cycle boundary and the answer OK, and change nothing else but the transport's record. That the two are
two steps, the second a turn of the worker, is log entry 11. The refusal and the device input are the spec's decisions D19
and D27. -/
def Obligations.StartChecksRunThenDevice : Prop :=
  ∀ s : State,
    (s.run ≠ .stoppedInit → exec .start s = .next { s with resps := .error .illegalCommand :: s.resps })
    ∧ (s.run = .stoppedInit → s.devOk = false →
        exec .start s = .next { s with err := s.err ||| 0b010#3, run := .stoppedFinal
                                       resps := .error .deviceUnavailable :: s.resps })
    ∧ (s.run = .stoppedInit → s.devOk = true → exec .start s = .next { s with phase := .detect, held := some .start })
    ∧ ∀ (bs : List Byte) (rest : List RxAnswer) (ts : List Turn),
        s.run = .stoppedInit → s.devOk = true → 79 ≤ s.cfg.detectReadLen → s.rxQ = .bytes bs :: rest →
        bs.length = 64 ∨ bs.length = 78 → s.turns = .worker :: ts →
        ∃ t, exec .start s = .next t
          ∧ step t = .next { s with mode := if bs.length = 64 then .usb else .bt, modev := true, run := .running
                                    phase := .idle, held := none, turns := ts, rxQ := rest
                                    trace := .read s.cfg.detectReadLen :: s.trace, resps := .ok :: s.resps }

/-- STOP (spec/45_sequencer.md R270, R275): refused in STOPPED_INIT; in RUNNING it sets STOPREQ and waits, looking again at
each turn of the caller; in STOPPED_FINAL it answers TransportIOError exactly when ERR[2] = 1. The refusal and the
re-reported error are the spec's decisions D19 and D23; the second look at each turn is log entry 11. -/
def Obligations.StopWaitsForTheWorkerAndReports : Prop :=
  ∀ s : State,
    (s.run = .stoppedInit → exec .stop s = .next { s with resps := .error .illegalCommand :: s.resps })
    ∧ (s.run = .running → exec .stop s = .next { s with stopreq := true, held := some .stop })
    ∧ (s.run = .stoppedFinal → s.err.getLsbD 2 = false →
        exec .stop s = .next { s with held := none, resps := .ok :: s.resps })
    ∧ (s.run = .stoppedFinal → s.err.getLsbD 2 = true →
        exec .stop s = .next { s with held := none, resps := .error .transportIO :: s.resps })
    ∧ ∀ ts, s.turns = .caller :: ts → s.held = some .stop → step s = exec .stop { s with turns := ts }

/-- DETECT with the rest of START (spec/45_sequencer.md R262): the length of the answer alone decides; a failure and any
other length close the transport and end the session; with no answer yet the step changes nothing (spec/20_memory.md R79).
The read is oversized. What other lengths do is the spec's decision D18; that DETECT's step also gives START's answer is log
entry 11. -/
def Obligations.DetectDecidesTheModeByLength : Prop :=
  ∀ (s : State) (rest : List RxAnswer), 79 ≤ s.cfg.detectReadLen →
    (∀ bs, s.rxQ = .bytes bs :: rest → bs.length = 64 →
      exec .detect s = .next { s with mode := .usb, modev := true, run := .running, phase := .idle, held := none, rxQ := rest
                                      trace := .read s.cfg.detectReadLen :: s.trace, resps := .ok :: s.resps })
    ∧ (∀ bs, s.rxQ = .bytes bs :: rest → bs.length = 78 →
      exec .detect s = .next { s with mode := .bt, modev := true, run := .running, phase := .idle, held := none, rxQ := rest
                                      trace := .read s.cfg.detectReadLen :: s.trace, resps := .ok :: s.resps })
    ∧ (∀ bs, s.rxQ = .bytes bs :: rest → bs.length ≠ 64 → bs.length ≠ 78 →
      exec .detect s = .next { s with err := s.err ||| 0b001#3, run := .stoppedFinal, phase := .idle, held := none
                                      rxQ := rest, trace := .close :: .read s.cfg.detectReadLen :: s.trace
                                      resps := .error .malformedReport :: s.resps })
    ∧ (s.rxQ = .failed :: rest →
      exec .detect s = .next { s with err := s.err ||| 0b100#3, run := .stoppedFinal, phase := .idle, held := none
                                      rxQ := rest, trace := .close :: .read s.cfg.detectReadLen :: s.trace
                                      resps := .error .transportIO :: s.resps })
    ∧ (s.rxQ = [] → exec .detect s = .next s)

/-- READ (spec/45_sequencer.md R265): the bytes and their count are stored, a short answer as it is, every other byte of
both buffers stays; a failure writes neither INBUF nor INLEN and takes the loop to CLOSE; with no answer yet the step
changes nothing (spec/20_memory.md R79). Storing a short answer is the spec's decision D25. -/
def Obligations.ReadStoresTheAnswerOrGoesToClose : Prop :=
  ∀ (s : State) (rest : List RxAnswer),
    (∀ bs, s.rxQ = .bytes bs :: rest → bs.length ≤ inLen s.mode →
      ∃ t, exec .read s = .next t
        ∧ t = { s with rxQ := rest, trace := .read (inLen s.mode) :: s.trace, inbuf := t.inbuf, inlen := bs.length
                       phase := .decode }
        ∧ (∀ i, i < bs.length → Memory.read t.inbuf i = bs[i]?)
        ∧ ∀ a, bs.length ≤ a → Memory.read t.inbuf a = Memory.read s.inbuf a)
    ∧ (s.rxQ = .failed :: rest →
      exec .read s = .next { s with rxQ := rest, trace := .read (inLen s.mode) :: s.trace, err := s.err ||| 0b100#3
                                    phase := .close })
    ∧ (s.rxQ = [] → exec .read s = .next s)

/-- WRITE (spec/45_sequencer.md R268): with a report in OUTBUF, exactly OUT_LEN(MODE) bytes of it are handed over in one
write; success ends the cycle, a failure takes the loop to CLOSE; with no answer yet the step changes nothing
(spec/20_memory.md R79). -/
def Obligations.WriteHandsOverTheWholeReport : Prop :=
  ∀ (s : State) (rest : List TxAnswer), listedBelow s.outbuf (outLen s.mode) →
    ∃ report : List Byte, report.length = outLen s.mode
      ∧ (∀ i, i < outLen s.mode → Memory.read s.outbuf i = report[i]?)
      ∧ (s.txQ = .done :: rest →
          exec .write s = .next { s with txQ := rest, trace := .write report :: s.trace, phase := .idle })
      ∧ (s.txQ = .failed :: rest →
          exec .write s = .next { s with txQ := rest, trace := .write report :: s.trace, err := s.err ||| 0b100#3
                                         phase := .close })
      ∧ (s.txQ = [] → exec .write s = .next s)

/-- CLOSE completes in every state: the transport is closed, the session is over, and nothing else changes
(spec/45_sequencer.md R269). Closing on the error paths too is the spec's decision D21. -/
def Obligations.CloseEndsTheSession : Prop :=
  ∀ s : State,
    exec .close s = .next { s with trace := .close :: s.trace, run := .stoppedFinal, phase := .idle }

/-- The cycle boundary, and STOPREQ is sampled nowhere else: away from it a worker's step is the same whatever STOPREQ is
(spec/45_sequencer.md R264). -/
def Obligations.StopreqIsSampledAtTheCycleBoundaryOnly : Prop :=
  (∀ (s : State) (ts : List Turn), s.turns = .worker :: ts → s.run = .running → s.phase = .idle →
    (s.stopreq = false → step s = .next { s with turns := ts, phase := .read })
    ∧ (s.stopreq = true → step s = .next { s with turns := ts, phase := .close }))
  ∧ ∀ (s t : State) (b : Bool), ¬(s.run = .running ∧ s.phase = .idle) →
      workerTurn s = .next t → workerTurn { s with stopreq := b } = .next { t with stopreq := b }

/-! ## DECODE -/

/-- DECODE in the cycle (spec/45_sequencer.md R266, spec/40_decoder.md R132, R133, R145): with the stored report long enough
CS is replaced as a whole and nothing else but PHASE changes; else CS is unchanged, ERR[0] is set and the cycle is
abandoned. A full report, 64 bytes over USB and 78 over Bluetooth, always decodes, whatever the bytes. The two length tests
and the policy are the spec's decisions D12 and D20. -/
def Obligations.DecodeReplacesCsOrAbandonsTheCycle : Prop :=
  (∀ s : State, listedBelow s.inbuf s.inlen → s.inlen ≤ 78 →
    ∃ raw : List Byte, raw.length = s.inlen ∧ (∀ i, i < s.inlen → Memory.read s.inbuf i = raw[i]?)
      ∧ (41 ≤ s.inlen - inPrefix s.mode → (batteryExposed s.cfg s.mode = true → 54 ≤ s.inlen - inPrefix s.mode) →
          ∃ cs, decodeReport s.cfg s.mode raw = some cs ∧ exec .decode s = .next { s with cs := cs, phase := .diff })
      ∧ (s.inlen - inPrefix s.mode < 41 ∨ (batteryExposed s.cfg s.mode = true ∧ s.inlen - inPrefix s.mode < 54) →
          decodeReport s.cfg s.mode raw = none
          ∧ exec .decode s = .next { s with err := s.err ||| 0b001#3
                                            phase := match s.cfg.malformedPolicy with
                                              | .skipCycle => .idle
                                              | .terminate => .close }))
  ∧ ∀ (cfg : Config) (mode : ConnMode) (raw : List Byte), raw.length = (if mode = .usb then 64 else 78) →
      ∃ cs, decodeReport cfg mode raw = some cs

/-- Sticks are the payload bytes less 128; triggers are the payload bytes (spec/40_decoder.md R134, R135). -/
def Obligations.DecodedSticksAndTriggers : Prop :=
  ∀ (cfg : Config) (mode : ConnMode) (raw : List Byte) (cs : ControllerState), decodeReport cfg mode raw = some cs →
    ∃ P : Nat → Byte, (∀ i, i < 41 → raw[i + inPrefix mode]? = some (P i))
      ∧ cs.lx.toInt = ((P 1).toNat : Int) - 128 ∧ cs.ly.toInt = ((P 2).toNat : Int) - 128
      ∧ cs.rx.toInt = ((P 3).toNat : Int) - 128 ∧ cs.ry.toInt = ((P 4).toNat : Int) - 128
      ∧ cs.l2 = P 5 ∧ cs.r2 = P 6

/-- The buttons are the bits of payload bytes 8, 9 and 10, and the directions follow the table of D-pad codes
(spec/40_decoder.md R136 to R139). -/
def Obligations.DecodedButtonsAndDpad : Prop :=
  ∀ (cfg : Config) (mode : ConnMode) (raw : List Byte) (cs : ControllerState), decodeReport cfg mode raw = some cs →
    ∃ P : Nat → Byte, (∀ i, i < 41 → raw[i + inPrefix mode]? = some (P i))
      ∧ (cs.triangle = true ↔ (P 8).toNat / 128 % 2 = 1) ∧ (cs.circle = true ↔ (P 8).toNat / 64 % 2 = 1)
      ∧ (cs.cross = true ↔ (P 8).toNat / 32 % 2 = 1) ∧ (cs.square = true ↔ (P 8).toNat / 16 % 2 = 1)
      ∧ (cs.r3 = true ↔ (P 9).toNat / 128 % 2 = 1) ∧ (cs.l3 = true ↔ (P 9).toNat / 64 % 2 = 1)
      ∧ (cs.options = true ↔ (P 9).toNat / 32 % 2 = 1) ∧ (cs.share = true ↔ (P 9).toNat / 16 % 2 = 1)
      ∧ (cs.r2btn = true ↔ (P 9).toNat / 8 % 2 = 1) ∧ (cs.l2btn = true ↔ (P 9).toNat / 4 % 2 = 1)
      ∧ (cs.r1 = true ↔ (P 9).toNat / 2 % 2 = 1) ∧ (cs.l1 = true ↔ (P 9).toNat % 2 = 1)
      ∧ (cs.ps = true ↔ (P 10).toNat % 2 = 1) ∧ (cs.tpclick = true ↔ (P 10).toNat / 2 % 2 = 1)
      ∧ (cs.mic = true ↔ (P 10).toNat / 4 % 2 = 1)
      ∧ (cs.dpadUp = true ↔ (P 8).toNat % 16 ∈ [0, 1, 7]) ∧ (cs.dpadRight = true ↔ (P 8).toNat % 16 ∈ [1, 2, 3])
      ∧ (cs.dpadDown = true ↔ (P 8).toNat % 16 ∈ [3, 4, 5]) ∧ (cs.dpadLeft = true ↔ (P 8).toNat % 16 ∈ [5, 6, 7])

/-- The six sensor values are little-endian two's complement 16-bit integers (spec/40_decoder.md R140, R141). -/
def Obligations.DecodedSensorsAreSigned16 : Prop :=
  ∀ (cfg : Config) (mode : ConnMode) (raw : List Byte) (cs : ControllerState), decodeReport cfg mode raw = some cs →
    ∃ P : Nat → Byte, (∀ i, i < 41 → raw[i + inPrefix mode]? = some (P i))
      ∧ ∀ (v : BitVec 16) (o : Nat),
          (v, o) ∈ [(cs.accel.x, 16), (cs.accel.y, 18), (cs.accel.z, 20), (cs.gyro.pitch, 22), (cs.gyro.yaw, 24),
                    (cs.gyro.roll, 26)] →
          v.toInt = if 256 * (P (o + 1)).toNat + (P o).toNat < 32768
            then ((256 * (P (o + 1)).toNat + (P o).toNat : Nat) : Int)
            else ((256 * (P (o + 1)).toNat + (P o).toNat : Nat) : Int) - 65536

/-- The touch slots (spec/40_decoder.md R142), by arithmetic on the four bytes of each. -/
def Obligations.DecodedTouchSlots : Prop :=
  ∀ (cfg : Config) (mode : ConnMode) (raw : List Byte) (cs : ControllerState), decodeReport cfg mode raw = some cs →
    ∃ P : Nat → Byte, (∀ i, i < 41 → raw[i + inPrefix mode]? = some (P i))
      ∧ ∀ (slot : TouchSlot) (o : Nat), (slot, o) ∈ [(cs.touch0, 33), (cs.touch1, 37)] →
          slot.id.toNat = (P o).toNat % 128
          ∧ (slot.active = true ↔ (P o).toNat < 128)
          ∧ slot.x.toNat = ((P (o + 2)).toNat % 16) * 256 + (P (o + 1)).toNat
          ∧ slot.y.toNat = (P (o + 3)).toNat * 16 + (P (o + 2)).toNat / 16

/-- The battery (spec/40_decoder.md R143): state and capped level from payload byte 53, in every report that decodes and holds
that byte. In a mode that exposes the battery every report that decodes holds it (R132, the spec's decision D12). That byte 53
is decoded also in a mode that does not expose the battery is the model's reading, log entry 12. -/
def Obligations.DecodedBattery : Prop :=
  ∀ (cfg : Config) (mode : ConnMode) (raw : List Byte) (cs : ControllerState), decodeReport cfg mode raw = some cs →
    (batteryExposed cfg mode = true → ∃ b : Byte, raw[53 + inPrefix mode]? = some b)
    ∧ ∀ b : Byte, raw[53 + inPrefix mode]? = some b →
      cs.bat.valid = true ∧ cs.bat.state.toNat = b.toNat / 16
      ∧ cs.bat.level.toNat = min (b.toNat % 16 * 10 + 5) 100

/-- Bytes that are not interpreted do not matter: two reports of one length that agree on the decoded bytes (of byte 10, on
its bits 2 to 0) decode alike; the Bluetooth prefix is not looked at (spec/40_decoder.md R144). -/
def Obligations.UninterpretedBytesDoNotMatter : Prop :=
  ∀ (cfg : Config) (mode : ConnMode) (raw raw' : List Byte), raw.length = raw'.length →
    (∀ i, i ∈ [1, 2, 3, 4, 5, 6, 8, 9] ++ (List.range 12).map (· + 16) ++ (List.range 8).map (· + 33) ++ [53] →
      raw[i + inPrefix mode]? = raw'[i + inPrefix mode]?) →
    (∀ b b', raw[10 + inPrefix mode]? = some b → raw'[10 + inPrefix mode]? = some b' → b.toNat % 8 = b'.toNat % 8) →
    decodeReport cfg mode raw = decodeReport cfg mode raw'

/-- A Bluetooth report is a prefix and a USB payload (spec/40_decoder.md R131): with the prefix dropped both decode alike
when the two modes treat the battery alike. The empty report is the spec's decision D12. -/
def Obligations.BluetoothReportIsPrefixAndPayload : Prop :=
  ∀ (cfg : Config) (b : Byte) (raw : List Byte), cfg.batteryExposedBt = cfg.batteryExposedUsb →
    decodeReport cfg .bt (b :: raw) = decodeReport cfg .usb raw ∧ decodeReport cfg .bt [] = none

/-! ## DIFF -/

/-- DIFF completes in every state: without a baseline no event; with one, exactly the bits of the changed signals; then CS
is the baseline, and nothing else but PHASE changes (spec/44_change_detector.md R240 to R244). The signals' indices and the
moment the baseline moves are the spec's decisions D17 and D31. -/
def Obligations.DiffRaisesTheChangedSignals : Prop :=
  ∀ s : State, ∃ ev : BitVec 25,
    exec .diff s = .next { s with ev := ev, prev := s.cs, prevv := true, phase := .encode }
    ∧ (s.prevv = false → ev = 0#25)
    ∧ (s.prevv = true →
        (ev.getLsbD 0 = true ↔ s.prev.square ≠ s.cs.square) ∧ (ev.getLsbD 1 = true ↔ s.prev.triangle ≠ s.cs.triangle)
        ∧ (ev.getLsbD 2 = true ↔ s.prev.circle ≠ s.cs.circle) ∧ (ev.getLsbD 3 = true ↔ s.prev.cross ≠ s.cs.cross)
        ∧ (ev.getLsbD 4 = true ↔ s.prev.dpadUp ≠ s.cs.dpadUp) ∧ (ev.getLsbD 5 = true ↔ s.prev.dpadDown ≠ s.cs.dpadDown)
        ∧ (ev.getLsbD 6 = true ↔ s.prev.dpadLeft ≠ s.cs.dpadLeft)
        ∧ (ev.getLsbD 7 = true ↔ s.prev.dpadRight ≠ s.cs.dpadRight)
        ∧ (ev.getLsbD 8 = true ↔ s.prev.l1 ≠ s.cs.l1) ∧ (ev.getLsbD 9 = true ↔ s.prev.l2btn ≠ s.cs.l2btn)
        ∧ (ev.getLsbD 10 = true ↔ s.prev.l3 ≠ s.cs.l3) ∧ (ev.getLsbD 11 = true ↔ s.prev.r1 ≠ s.cs.r1)
        ∧ (ev.getLsbD 12 = true ↔ s.prev.r2btn ≠ s.cs.r2btn) ∧ (ev.getLsbD 13 = true ↔ s.prev.r3 ≠ s.cs.r3)
        ∧ (ev.getLsbD 14 = true ↔ s.prev.lx ≠ s.cs.lx ∨ s.prev.ly ≠ s.cs.ly)
        ∧ (ev.getLsbD 15 = true ↔ s.prev.rx ≠ s.cs.rx ∨ s.prev.ry ≠ s.cs.ry)
        ∧ (ev.getLsbD 16 = true ↔ s.prev.l2 ≠ s.cs.l2) ∧ (ev.getLsbD 17 = true ↔ s.prev.r2 ≠ s.cs.r2)
        ∧ (ev.getLsbD 18 = true ↔ s.prev.ps ≠ s.cs.ps) ∧ (ev.getLsbD 19 = true ↔ s.prev.tpclick ≠ s.cs.tpclick)
        ∧ (ev.getLsbD 20 = true ↔ s.prev.mic ≠ s.cs.mic) ∧ (ev.getLsbD 21 = true ↔ s.prev.share ≠ s.cs.share)
        ∧ (ev.getLsbD 22 = true ↔ s.prev.options ≠ s.cs.options)
        ∧ (ev.getLsbD 23 = true ↔ s.prev.gyro.pitch ≠ s.cs.gyro.pitch ∨ s.prev.gyro.yaw ≠ s.cs.gyro.yaw
            ∨ s.prev.gyro.roll ≠ s.cs.gyro.roll)
        ∧ (ev.getLsbD 24 = true ↔ s.prev.accel.x ≠ s.cs.accel.x ∨ s.prev.accel.y ≠ s.cs.accel.y
            ∨ s.prev.accel.z ≠ s.cs.accel.z))

/-- The touch slots and the battery are not observed: the event vector is zero exactly when the two states agree on every
other field (spec/44_change_detector.md R246, R248 (a)). -/
def Obligations.NoEventIffOnlyUnobservedFieldsDiffer : Prop :=
  ∀ p c : ControllerState,
    evOf p c = 0#25 ↔ { p with touch0 := c.touch0, touch1 := c.touch1, bat := c.bat } = c

/-- The event port after a DIFF presents each changed signal once, in SIGNAL_ORDER, with the new values of its fields read
from CS: for each of the 25 rows of the table, the payload the table gives it (spec/44_change_detector.md R241, R245, R247,
R249). The port, the signals' indices and the order are the spec's decision D17; the port as a view of State is log entry 14. -/
def Obligations.EventPortPresentsTheNewValues : Prop :=
  ∀ s t : State, configOk s.cfg = true → exec .diff s = .next t →
    (∀ (i : Nat) (p : Option EventPayload), (i, p) ∈ t.eventPort ↔ t.ev.getLsbD i = true ∧ ∃ q, p = some q ∧
      (i, q) ∈ ([(0, .bit s.cs.square), (1, .bit s.cs.triangle), (2, .bit s.cs.circle), (3, .bit s.cs.cross),
        (4, .bit s.cs.dpadUp), (5, .bit s.cs.dpadDown), (6, .bit s.cs.dpadLeft), (7, .bit s.cs.dpadRight),
        (8, .bit s.cs.l1), (9, .bit s.cs.l2btn), (10, .bit s.cs.l3), (11, .bit s.cs.r1), (12, .bit s.cs.r2btn),
        (13, .bit s.cs.r3), (14, .stick s.cs.lx s.cs.ly), (15, .stick s.cs.rx s.cs.ry), (16, .byte s.cs.l2),
        (17, .byte s.cs.r2), (18, .bit s.cs.ps), (19, .bit s.cs.tpclick), (20, .bit s.cs.mic), (21, .bit s.cs.share),
        (22, .bit s.cs.options), (23, .triple s.cs.gyro.pitch s.cs.gyro.yaw s.cs.gyro.roll),
        (24, .triple s.cs.accel.x s.cs.accel.y s.cs.accel.z)] : List (Nat × EventPayload)))
    ∧ (t.eventPort.map Prod.fst).Nodup ∧ (t.eventPort.map Prod.fst).Sublist s.cfg.signalOrder

/-! ## ENCODE and CRC32 -/

/-- ENCODE, begun, completes under the constraints on OUTMAP: OUTBUF holds the report body of the snapshot, every byte beyond
it stays, PO is not changed; in USB mode the cycle goes on to WRITE, in Bluetooth mode CRC32 is called (spec/42_encoder.md
R180, R181, R193; log entry 9). -/
def Obligations.EncodeWritesItsFields : Prop :=
  ∀ s : State, outMapOk s.cfg.outMap = true → (∀ c, s.enc ≠ .crcReturned c) →
    ∃ t, exec .encode s = .next t
      ∧ t = { s with outbuf := t.outbuf, latched := [], latch := PendingOutput.zero
                     phase := if s.mode = .usb then .write else .encode
                     enc := if s.mode = .usb then .start else .crcCalled }
      ∧ (∀ k, k < outLen s.mode → Memory.read t.outbuf k = (reportBody s.cfg s.mode s.snapshot)[k]?)
      ∧ ∀ k, outLen s.mode ≤ k → Memory.read t.outbuf k = Memory.read s.outbuf k

/-- ENCODE, resumed with the result of CRC32, writes it least significant byte first into the last four bytes, and no other
byte (spec/42_encoder.md R190). That ENCODE is resumed in a step of its own, with the result in `enc`, is the model's split,
log entry 9. -/
def Obligations.EncodeWritesTheChecksumTail : Prop :=
  ∀ (s : State) (crc : BitVec 32), s.enc = .crcReturned crc →
    ∃ t, exec .encode s = .next t ∧ t = { s with outbuf := t.outbuf, enc := .start, phase := .write }
      ∧ (∃ b0 b1 b2 b3 : Byte, Memory.read t.outbuf 74 = some b0 ∧ Memory.read t.outbuf 75 = some b1
          ∧ Memory.read t.outbuf 76 = some b2 ∧ Memory.read t.outbuf 77 = some b3
          ∧ crc.toNat = b0.toNat + 256 * b1.toNat + 65536 * b2.toNat + 16777216 * b3.toNat)
      ∧ ∀ k, k < 74 ∨ 78 ≤ k → Memory.read t.outbuf k = Memory.read s.outbuf k

/-- CRC32 as ENCODE calls it completes on a written buffer, over its first CRC_COVER bytes, and writes no register and no byte
(spec/41_checksum.md R170, R172). That CRC32 is a step of its own, and that its result waits in the model's field `enc` for the
ENCODE in progress to store it, is the model's split, log entry 9: in spec/10_state.md R50 (e) the result is a value inside
ENCODE, stored only in OUTBUF. The coverage is the spec's decision D8. -/
def Obligations.CrcReturnsTheChecksumAndWritesNothing : Prop :=
  ∀ s : State, listedBelow s.outbuf s.cfg.crc.cover → s.cfg.crc.cover ≤ 78 →
    ∃ B : List Byte, B.length = s.cfg.crc.cover ∧ (∀ i, i < s.cfg.crc.cover → Memory.read s.outbuf i = B[i]?)
      ∧ exec .crc32 s = .next { s with enc := .crcReturned (crc32 s.cfg.crc B) }

/-- A whole ENCODE by the worker, one step over USB and three over Bluetooth: OUTBUF then holds the whole report of the
snapshot, checksum included, and the cycle goes on to WRITE; nothing else changes (spec/42_encoder.md R180, R190). -/
def Obligations.WholeEncodeLeavesTheReportInOutbuf : Prop :=
  ∀ (s : State) (ts : List Turn) (n : Nat), outMapOk s.cfg.outMap = true → s.cfg.crc.cover ≤ 78 →
    s.run = .running → s.phase = .encode → s.enc = .start → n = (if s.mode = .usb then 1 else 3) →
    s.turns = List.replicate n Turn.worker ++ ts →
    ∃ t : State, Host.Core.run Sys2Proof.core n s = .next t
      ∧ t = { s with turns := ts, outbuf := t.outbuf, latched := [], latch := PendingOutput.zero, phase := .write }
      ∧ Memory.readRange t.outbuf 0 (outLen s.mode) = .ok (encodeReport s.cfg s.mode s.snapshot)
      ∧ ∀ k, outLen s.mode ≤ k → Memory.read t.outbuf k = Memory.read s.outbuf k

/-- The round trip: every field of PO stands in the report at its offset of OUTMAP, displaced by one over Bluetooth
(spec/42_encoder.md R195); the report has the length of its mode (R180), the marker at 0 and over Bluetooth BT_BYTE1 at 1
(R182), and the flag bytes at theirs (R183). Byte 1, the place of the seventh force and the microphone's encodings are the
spec's decisions D5, D6 and D15. That OUTMAP may put a field at a trigger's gap bytes, which R186 and R187 have stay zero, and
that the field then stands there, is the model's choice, log entry 19. -/
def Obligations.ReportCarriesEveryFieldAtItsOffset : Prop :=
  ∀ (cfg : Config) (mode : ConnMode) (po : PendingOutput), outMapOk cfg.outMap = true →
    (encodeReport cfg mode po).length = outLen mode
    ∧ (encodeReport cfg mode po)[0]? = some (if mode = .usb then 0x02#8 else 0x31#8)
    ∧ (mode = .bt → (encodeReport cfg mode po)[1]? = some cfg.btByte1)
    ∧ ∀ (k : Nat) (v : Byte),
        (k, v) ∈ [(cfg.outMap.flag0, 0xFF#8), (cfg.outMap.flag1, 0x57#8), (cfg.outMap.motorR, po.motorR),
          (cfg.outMap.motorL, po.motorL), (cfg.outMap.micLed, if po.micLed then 0x01#8 else 0x00#8),
          (cfg.outMap.micMute, if po.micMute then 0x10#8 else 0x00#8), (cfg.outMap.trigRMode, po.trigR.mode),
          (cfg.outMap.trigRForce0, po.trigR.force[0]), (cfg.outMap.trigRForce0 + 1, po.trigR.force[1]),
          (cfg.outMap.trigRForce0 + 2, po.trigR.force[2]), (cfg.outMap.trigRForce0 + 3, po.trigR.force[3]),
          (cfg.outMap.trigRForce0 + 4, po.trigR.force[4]), (cfg.outMap.trigRForce0 + 5, po.trigR.force[5]),
          (cfg.outMap.trigRForce0 + 8, po.trigR.force[6]), (cfg.outMap.trigLMode, po.trigL.mode),
          (cfg.outMap.trigLForce0, po.trigL.force[0]), (cfg.outMap.trigLForce0 + 1, po.trigL.force[1]),
          (cfg.outMap.trigLForce0 + 2, po.trigL.force[2]), (cfg.outMap.trigLForce0 + 3, po.trigL.force[3]),
          (cfg.outMap.trigLForce0 + 4, po.trigL.force[4]), (cfg.outMap.trigLForce0 + 5, po.trigL.force[5]),
          (cfg.outMap.trigLForce0 + 8, po.trigL.force[6]), (cfg.outMap.ledOption, po.ledOption),
          (cfg.outMap.pulseOption, po.pulseOption), (cfg.outMap.brightness, po.brightness),
          (cfg.outMap.player, po.player), (cfg.outMap.rgb, po.rgb.r), (cfg.outMap.rgb + 1, po.rgb.g),
          (cfg.outMap.rgb + 2, po.rgb.b)] →
        (encodeReport cfg mode po)[k + outShift mode]? = some v

/-- Every byte of a report that no rule assigns is zero; with the default OUTMAP these are the listed USB offsets
(spec/30_encoding.md R106). Zero is the spec's decision D9, and the listed offsets are those of its default OUTMAP, decision
D4. -/
def Obligations.UnassignedReportBytesAreZero : Prop :=
  (∀ (cfg : Config) (mode : ConnMode) (po : PendingOutput) (k : Nat), k < outLen mode → k ≠ 0 →
    (mode = .bt → k ≠ 1 ∧ k < 74) → (∀ j ∈ outMapOffsets cfg.outMap, k ≠ j + outShift mode) →
    (encodeReport cfg mode po)[k]? = some 0#8)
  ∧ ∀ (po : PendingOutput) (k : Nat),
      k ∈ [5, 6, 7, 8, 18, 19, 21, 29, 30, 32, 33, 34, 35, 36, 37, 38, 40, 41] ++ (List.range 16).map (· + 48) →
      (encodeReport defaultConfig .usb po)[k]? = some 0#8

/-- The two reports of one PendingOutput (spec/42_encoder.md R194). R194 is marked by the spec as derived from its rules;
byte 1 is decision D5 and the coverage decision D8. -/
def Obligations.BluetoothReportIsTheUsbReportShifted : Prop :=
  ∀ (cfg : Config) (po : PendingOutput), outMapOk cfg.outMap = true → cfg.crc.cover = 74 →
    ∃ U T : List Byte, U = encodeReport cfg .usb po ∧ T = encodeReport cfg .bt po
      ∧ T[0]? = some 0x31#8 ∧ T[1]? = some cfg.btByte1 ∧ (∀ k, 1 ≤ k → k ≤ 63 → T[k + 1]? = U[k]?)
      ∧ (∀ k, 65 ≤ k → k ≤ 73 → T[k]? = some 0#8)
      ∧ T.drop 74 = littleEndian4 (crc32 cfg.crc (T.take 74))
      ∧ (cfg.btByte1 = 0x02#8 → ∀ k, k ≤ 63 → T[k + 1]? = U[k]?)

/-- What ENCODE sees of PO (spec/20_memory.md R72, R73). `f.copy a x = f.copy b x` for every `x` says that `a` and `b` agree in
the field `f`; the first clause says that the fields together are all of PO. A turn `sample f` completes and leaves PO alone;
inside an ENCODE that has not written its fields, under SNAPSHOT per_field, it reads a field not yet read, once: later reads keep
the value. ENCODE then sees, however many fields it has read, of each field read the value at its read, whatever setters do
afterwards, and of every other field the value when it writes its fields. Under SNAPSHOT whole no field is read ahead. The
granularity is the spec's decision D22 and the form of the moments log entry 10. -/
def Obligations.EncodeSeesEachFieldAtTheMomentItIsRead : Prop :=
  (∀ a b : PendingOutput, (∀ f : PoField, f.copy a b = b) → a = b)
  ∧ (∀ (s : State) (f : PoField) (ts : List Turn), s.turns = .sample f :: ts →
      step s = .next (({ s with turns := ts } : State).sample f) ∧ (({ s with turns := ts } : State).sample f).po = s.po)
  ∧ (∀ (s : State) (f : PoField), s.run = .running → s.phase = .encode → s.enc = .start →
      s.cfg.snapshotPolicy = .perField → f ∉ s.latched →
      (∀ g, g ∈ (s.sample f).latched ↔ g = f ∨ g ∈ s.latched)
      ∧ ∀ x, f.copy (s.sample f).latch x = f.copy s.po x)
  ∧ (∀ (s : State) (f g : PoField), f ∈ s.latched →
      f ∈ (s.sample g).latched ∧ ∀ x, f.copy (s.sample g).latch x = f.copy s.latch x)
  ∧ (∀ (s : State) (f : PoField) (x : PendingOutput),
      (f ∈ s.latched → f.copy s.snapshot x = f.copy s.latch x)
      ∧ (f ∉ s.latched → f.copy s.snapshot x = f.copy s.po x))
  ∧ (∀ s : State, s.latched = [] → s.snapshot = s.po)
  ∧ (∀ (s : State) (f : PoField) (po : PendingOutput), s.run = .running → s.phase = .encode → s.enc = .start →
      s.cfg.snapshotPolicy = .perField → s.latched = [] →
      ({ s.sample f with po := po } : State).snapshot = f.copy s.po po)
  ∧ (∀ (s : State) (f g : PoField) (po po' : PendingOutput), s.run = .running → s.phase = .encode → s.enc = .start →
      s.cfg.snapshotPolicy = .perField → s.latched = [] → f ≠ g →
      ({ ({ s.sample f with po := po } : State).sample g with po := po' } : State).snapshot
        = f.copy s.po (g.copy po po'))
  ∧ ∀ (s : State) (f : PoField), s.cfg.snapshotPolicy = .whole → s.sample f = s

/-- The checksum changes if any single byte changes: for the reflected conventions with a polynomial of degree 32, whatever
the seed and the complements (spec/41_checksum.md R173). The conventions are the spec's decision D7. -/
def Obligations.ChecksumChangesWithAnySingleByte : Prop :=
  ∀ (p : CrcParams) (B B' : List Byte) (b b' : Byte), p.reflected = true → p.poly.getLsbD 31 = true → b ≠ b' →
    crc32 p (B ++ b :: B') ≠ crc32 p (B ++ b' :: B')

/-- The table-driven form computes the same function (spec/41_checksum.md R174). R174 is marked by the spec as derived from
R171, whose conventions are decision D7. -/
def Obligations.ChecksumTableFormIsTheSameFunction : Prop :=
  ∀ (p : CrcParams) (c : BitVec 32) (b : Byte), p.reflected = true →
    crcByte p c b = crcBits p 8 ((c ^^^ b.setWidth 32) &&& 0xFF#32) ^^^ (c >>> 8)

/-- With the default parameters (a default of the spec's own, log entry 6) the checksum is the plain CRC-32 of the byte 0xA2
followed by the buffer, and of the empty buffer it is the seed (spec/41_checksum.md R171, 95_test_vectors.md V-CRC-6). -/
def Obligations.DefaultChecksumIsPlainCrcAfterA2 : Prop :=
  (∀ B : List Byte, crc32 defaultCrc B = crc32 { defaultCrc with seed := 0#32 } (0xA2#8 :: B))
  ∧ ∀ p : CrcParams, p.complementIn = p.complementOut → crc32 p [] = p.seed

/-- The stops of the model, each reached only outside the rules: a byte of a buffer that nothing has written is read
(spec/10_state.md R51, spec/93_implementation_defined.md U22, log entry 5), or a value of OUTMAP or CRC_COVER leaves the buffer
(log entry 17). -/
def Obligations.UnwrittenBytesAndOutsideOffsetsStopTheReader : Prop :=
  (∀ (s : State) (a : Nat), s.inlen ≤ 78 → a < s.inlen → Memory.read s.inbuf a = none →
    ∃ k, k ≤ a ∧ exec .decode s = .fault (.unwrittenByte k))
  ∧ (∀ (s : State) (a : Nat) (answer : TxAnswer) (rest : List TxAnswer), s.txQ = answer :: rest → a < outLen s.mode →
    Memory.read s.outbuf a = none → ∃ k, k ≤ a ∧ exec .write s = .fault (.unwrittenByte k))
  ∧ (∀ (s : State) (a : Nat), s.cfg.crc.cover ≤ 78 → a < s.cfg.crc.cover → Memory.read s.outbuf a = none →
    ∃ k, k ≤ a ∧ exec .crc32 s = .fault (.unwrittenByte k))
  ∧ (∀ s : State, 78 < s.cfg.crc.cover → listedBelow s.outbuf 78 → exec .crc32 s = .fault (.offsetOutsideBuffer 78))
  ∧ ∀ (s : State) (k : Nat), s.enc = .start → k ∈ outMapOffsets s.cfg.outMap → outLen s.mode ≤ k + outShift s.mode →
    ∃ j, outLen s.mode ≤ j ∧ exec .encode s = .fault (.offsetOutsideBuffer j)

/-! ## Whole-machine rules -/

/-- ERR is sticky: no step clears a bit of it (spec/10_state.md R45, spec/60_exceptions.md R302). The register is the spec's
decision D23. -/
def Obligations.ErrBitsAreNeverCleared : Prop :=
  ∀ (s t : State) (i : Nat), step s = .next t → s.err.getLsbD i = true → t.err.getLsbD i = true

/-- The parameters and MODE are fixed for the session: no step writes a parameter (spec/70_reset_and_hazards.md R322, which the
spec marks as derived; that the parameters stand in the field `cfg` of State is log entry 7); once the loop has begun no step
writes MODE or MODEV, and before that only DETECT does (spec/00_scope.md R7, spec/10_state.md R41). -/
def Obligations.ModeAndParametersAreFixedForTheSession : Prop :=
  ∀ s t : State, step s = .next t → t.cfg = s.cfg ∧ ((t.mode ≠ s.mode ∨ t.modev ≠ s.modev) →
    s.run = .stoppedInit ∧ s.phase = .detect ∧ t.run = .running ∧ t.modev = true)

/-- The only transitions of RUN (spec/45_sequencer.md R260). -/
def Obligations.RunMovesForwardOnly : Prop :=
  ∀ s t : State, step s = .next t → t.run ≠ s.run →
    (s.run = .stoppedInit ∧ s.phase = .detect ∧ t.run = .running)
    ∨ (s.run = .stoppedInit ∧ t.run = .stoppedFinal ∧ t.err ≠ 0#3)
    ∨ (s.run = .running ∧ s.phase = .close ∧ t.run = .stoppedFinal ∧ t.trace = .close :: s.trace)

/-- After the end the worker takes no step, and every register but PO keeps its last value: only the command port moves
(spec/45_sequencer.md R272). R272 is marked by the spec as derived from R260 and R263. -/
def Obligations.AfterTheEndOnlyPendingOutputChanges : Prop :=
  ∀ s t : State, s.run = .stoppedFinal → step s = .next t →
    t = { s with po := t.po, turns := t.turns, cmds := t.cmds, held := t.held, resps := t.resps }
    ∧ ∀ ts, s.turns = .worker :: ts → t = { s with turns := ts }

/-- In a session, STOP's response is given only after the worker has left its loop: RUN is STOPPED_FINAL, the transport has
been closed, exactly once (but for an ERR[1] session, where nothing was open), and no read or write comes with the response
(spec/20_memory.md R77). -/
def Obligations.StopAnswersOnlyAfterTheLoopHasEnded : Prop :=
  ∀ s t : State, SequencerOk s → s.held = some .stop → step s = .next t → t.held ≠ some .stop →
    s.run = .stoppedFinal ∧ t.run = .stoppedFinal ∧ t.trace = s.trace ∧ (∃ r, t.resps = r :: s.resps)
    ∧ (s.err.getLsbD 1 = false → t.trace.count Transaction.close = 1)

/-- STOP can block for ever: a worker that waits in READ for a transport that does not answer stays there at every step, a held
STOP stays unanswered, and nothing is read, written or closed (spec/45_sequencer.md R271). -/
def Obligations.StopHangsWhileReadIsUnanswered : Prop :=
  ∀ s : State, s.run = .running → s.phase = .read → s.rxQ = [] → s.held = some .stop →
    ∃ t, step s = .next t ∧ t.run = .running ∧ t.phase = .read ∧ t.rxQ = [] ∧ t.held = some .stop ∧ t.resps = s.resps
      ∧ t.trace = s.trace

/-- The agents' rights (spec/60_exceptions.md R303, spec/10_state.md R30, R39): a turn of the caller writes neither CS nor
PREV, EV, MODE, the buffers, nor uses the transport; a turn of the worker writes neither PO nor STOPREQ. The ports are the
spec's decision D1. -/
def Obligations.AgentsKeepToTheirRights : Prop :=
  (∀ s t : State, callerTurn s = .next t →
    t.cs = s.cs ∧ t.prev = s.prev ∧ t.prevv = s.prevv ∧ t.ev = s.ev ∧ t.mode = s.mode ∧ t.modev = s.modev
    ∧ (∀ a, Memory.read t.inbuf a = Memory.read s.inbuf a) ∧ (∀ a, Memory.read t.outbuf a = Memory.read s.outbuf a)
    ∧ t.inlen = s.inlen ∧ t.trace = s.trace ∧ t.rxQ = s.rxQ ∧ t.txQ = s.txQ)
  ∧ ∀ s t : State, workerTurn s = .next t → t.po = s.po ∧ t.stopreq = s.stopreq ∧ t.cmds = s.cmds

/-- Both buffers keep their canonical form at every step. -/
def Obligations.StepKeepsBuffersCanonical : Prop :=
  ∀ s t : State, Memory.wf s.inbuf = true → Memory.wf s.outbuf = true → step s = .next t →
    Memory.wf t.inbuf = true ∧ Memory.wf t.outbuf = true

/-- The register files keep to their ranges at every step: both triggers of PO, and of what ENCODE sees of it, hold one of the
ten mode bytes (spec/10_state.md R35, spec/30_encoding.md R109); CS and PREV hold sticks of −128 to 128, no opposite directions,
a level of at most 100, and zeros while the battery is unknown (spec/10_state.md R22, R25, R29). -/
def Obligations.StepKeepsRegisterRanges : Prop :=
  (∀ s : State, poOk s.po → poOk s.latch →
    poOk s.snapshot ∧ ∀ t, step s = .next t → poOk t.po ∧ poOk t.latch)
  ∧ ∀ s t : State, csOk s.cs → csOk s.prev → step s = .next t → csOk t.cs ∧ csOk t.prev

/-- HEADLINE. Every step keeps the invariant of a session. -/
def Obligations.StepKeepsTheInvariant : Prop := ∀ s t : State, Inv s → step s = .next t → Inv t

/-- In a session nothing ever stops the machine: from every state that meets the invariant the step answers a next
state; no unwritten byte is read (spec/10_state.md R51, spec/93_implementation_defined.md U22) and nothing is refused. -/
def Obligations.SessionsNeverFault : Prop := ∀ s : State, Inv s → ∃ t, step s = .next t

/-- One whole cycle (spec/45_sequencer.md R263, R267): from the boundary, with a full report and a write answered, the worker
reads, decodes, compares, encodes and writes, and is at the boundary again; one report, that of PO, went out. That the cycle takes
six steps over USB and eight over Bluetooth, where ENCODE is three, is the model's count, log entry 9. -/
def Obligations.OneCycleReadsDecodesComparesEncodesWrites : Prop :=
  ∀ (s : State) (bs : List Byte) (rx : List RxAnswer) (tx : List TxAnswer) (ts : List Turn) (n : Nat), Inv s →
    s.run = .running → s.phase = .idle → s.stopreq = false →
    s.rxQ = .bytes bs :: rx → bs.length = inLen s.mode → s.txQ = .done :: tx →
    n = (if s.mode = .usb then 6 else 8) → s.turns = List.replicate n Turn.worker ++ ts →
    ∃ t : State, Host.Core.run Sys2Proof.core n s = .next t
      ∧ t.run = .running ∧ t.phase = .idle ∧ t.turns = ts ∧ t.rxQ = rx ∧ t.txQ = tx ∧ t.po = s.po ∧ t.err = s.err
      ∧ decodeReport s.cfg s.mode bs = some t.cs ∧ t.prev = t.cs ∧ t.prevv = true
      ∧ t.ev = (if s.prevv then evOf s.prev t.cs else 0#25)
      ∧ t.trace = .write (encodeReport s.cfg s.mode s.po) :: .read (inLen s.mode) :: s.trace
end

