-- ==== Sys2Proof/Laws/Checksum.lean ====
section
/-! SUPPORT. The laws of the checksum. -/

namespace Sys2Proof.Machine

/-- Computing the register first changes nothing. -/
@[simp] theorem computed_eq {α : Type} (c : BitVec 32) (k : BitVec 32 → α) : computed c k = k c := by
  unfold computed
  split
  · rename_i h
    congr 1
    exact BitVec.eq_of_toNat_eq (by simpa using h.symm)
  · rename_i n h
    congr 1
    have h' : c.toNat = n + 1 := h
    rw [← h']
    simp

@[simp] theorem crcBits_zero (p : CrcParams) (c : BitVec 32) : crcBits p 0 c = c := rfl

@[simp] theorem crcBits_succ (p : CrcParams) (n : Nat) (c : BitVec 32) : crcBits p (n + 1) c = crcBits p n (crcBit p c) := by
  simp [crcBits]

@[simp] theorem crcBytes_nil (p : CrcParams) (c : BitVec 32) : crcBytes p [] c = c := rfl

@[simp] theorem crcBytes_cons (p : CrcParams) (b : Byte) (bs : List Byte) (c : BitVec 32) :
    crcBytes p (b :: bs) c = crcBytes p bs (crcByte p c b) := by
  simp [crcBytes]

theorem crcBytes_append (p : CrcParams) (B B' : List Byte) (c : BitVec 32) :
    crcBytes p (B ++ B') c = crcBytes p B' (crcBytes p B c) := by
  induction B generalizing c with
  | nil => simp
  | cons b bs ih => simp [ih]

end Sys2Proof.Machine
end

