-- ==== Sys2Proof/Laws/Encoding.lean ====
section
/-! SUPPORT. The fields of a command word written by `commandWord`, and an operand read back from its field. -/

namespace Sys2Proof

@[simp] theorem opField_commandWord (op sel : BitVec 8) (a b c : BitVec 16) : opField (commandWord op sel a b c) = op := by
  ext i hi
  simp [opField, commandWord]
  grind

@[simp] theorem selField_commandWord (op sel : BitVec 8) (a b c : BitVec 16) :
    selField (commandWord op sel a b c) = sel := by
  ext i hi
  simp [selField, commandWord]
  grind

@[simp] theorem aField_commandWord (op sel : BitVec 8) (a b c : BitVec 16) :
    aField (commandWord op sel a b c) = a.toInt := by
  unfold aField
  congr 1
  ext i hi
  simp [commandWord]
  grind

@[simp] theorem bField_commandWord (op sel : BitVec 8) (a b c : BitVec 16) :
    bField (commandWord op sel a b c) = b.toInt := by
  unfold bField
  congr 1
  ext i hi
  simp [commandWord]
  grind

@[simp] theorem cField_commandWord (op sel : BitVec 8) (a b c : BitVec 16) :
    cField (commandWord op sel a b c) = c.toInt := by
  unfold cField
  congr 1
  ext i hi
  simp only [commandWord, BitVec.getElem_extractLsb', BitVec.getLsbD_append]
  simp [hi]

/-- An operand that fits its field is read back from it. -/
theorem operandField_toInt {v : Int} (h : fitsOperand v = true) : (operandField v).toInt = v := by
  simp only [fitsOperand, decide_eq_true_eq] at h
  unfold operandField
  rw [BitVec.toInt_ofInt]
  exact Int.bmod_eq_of_le (by omega) (by omega)

/-- An operand read from a field fits it. -/
theorem fitsOperand_toInt (b : BitVec 16) : fitsOperand b.toInt = true := by
  simp only [fitsOperand, decide_eq_true_eq]
  have h1 := BitVec.le_toInt b
  have h2 := BitVec.toInt_lt (x := b)
  omega

@[simp] theorem sideOfSel_selOfSide (t : Side) : sideOfSel (selOfSide t) = .ok t := by cases t <;> rfl

end Sys2Proof
end

