-- ==== Sys2Proof/Laws/Memory.lean ====
section
/-! SUPPORT. The laws of the buffers: a read after a write, what a write leaves alone, and the canonical form. -/

namespace Sys2Proof.Machine

theorem read_append (m₁ m₂ : Memory) (k : Nat) :
    Memory.read (m₁ ++ m₂) k = (Memory.read m₁ k).or (Memory.read m₂ k) := by
  induction m₁ with
  | nil => simp [Memory.read]
  | cons c m ih =>
    obtain ⟨a, b⟩ := c
    by_cases h : a = k <;> simp [Memory.read, h, ih]

theorem read_filter (p : Nat → Bool) (m : Memory) (k : Nat) :
    Memory.read (m.filter (fun c => p c.1)) k = if p k then Memory.read m k else none := by
  induction m with
  | nil => simp [Memory.read]
  | cons c m ih =>
    obtain ⟨a, b⟩ := c
    by_cases hp : p a = true
    · by_cases h : a = k
      · subst h; simp [hp, Memory.read]
      · simp [hp, Memory.read, h, ih]
    · have hp' : p a = false := by simpa using hp
      by_cases h : a = k
      · subst h; simp [hp', ih]
      · simp [hp', ih, Memory.read, h]

theorem read_cellsFrom (bs : List Byte) (a k : Nat) :
    Memory.read (cellsFrom a bs) k = if a ≤ k then bs[k - a]? else none := by
  induction bs generalizing a with
  | nil => simp [cellsFrom, Memory.read]
  | cons b bs ih =>
    by_cases h : a = k
    · subst h; simp [cellsFrom, Memory.read]
    · by_cases hk : a ≤ k
      · have e : k - a = (k - (a + 1)) + 1 := by omega
        have h1 : a + 1 ≤ k := by omega
        simp [cellsFrom, Memory.read, h, ih, hk, h1, e]
      · have h1 : ¬(a + 1 ≤ k) := by omega
        simp [cellsFrom, Memory.read, h, ih, hk, h1]

/-- A read after a write: inside the written bytes the byte written, outside them what was there. -/
theorem read_writeBytes (m : Memory) (a : Nat) (bs : List Byte) (k : Nat) :
    Memory.read (Memory.writeBytes m a bs) k = if a ≤ k ∧ k < a + bs.length then bs[k - a]? else Memory.read m k := by
  unfold Memory.writeBytes
  rw [read_append, read_append, read_filter (fun n => decide (n < a)), read_filter (fun n => decide (a + bs.length ≤ n)),
    read_cellsFrom]
  by_cases h1 : k < a
  · have h2 : ¬(a ≤ k) := by omega
    have h3 : ¬(a + bs.length ≤ k) := by omega
    simp [h1, h2, h3]
  · by_cases h2 : k < a + bs.length
    · have h3 : ¬(a + bs.length ≤ k) := by omega
      have h4 : a ≤ k := by omega
      simp [h1, h2, h3, h4]
    · have h3 : a + bs.length ≤ k := by omega
      have h4 : bs[k - a]? = none := by simp; omega
      have h5 : a ≤ k := by omega
      simp [h1, h2, h3, h4, h5]

theorem read_writeBytes_outside (m : Memory) (a : Nat) (bs : List Byte) (k : Nat) (h : k < a ∨ a + bs.length ≤ k) :
    Memory.read (Memory.writeBytes m a bs) k = Memory.read m k := by
  rw [read_writeBytes, if_neg (by omega)]

theorem read_writeBytes_inside (m : Memory) (a : Nat) (bs : List Byte) (i : Nat) (h : i < bs.length) :
    Memory.read (Memory.writeBytes m a bs) (a + i) = some bs[i] := by
  rw [read_writeBytes, if_pos (by omega)]; simp [h]

/-! ## The canonical form -/

theorem risesFrom_mono {lo lo' : Nat} {m : Memory} (h : Memory.risesFrom lo m = true) (hl : lo' ≤ lo) :
    Memory.risesFrom lo' m = true := by
  cases m with
  | nil => rfl
  | cons c m =>
    obtain ⟨k, b⟩ := c
    simp only [Memory.risesFrom, Bool.and_eq_true, decide_eq_true_eq] at h ⊢
    exact ⟨by omega, h.2⟩

theorem risesFrom_filter (p : Host.Cell → Bool) {lo : Nat} {m : Memory} (h : Memory.risesFrom lo m = true) :
    Memory.risesFrom lo (m.filter p) = true := by
  induction m generalizing lo with
  | nil => rfl
  | cons c m ih =>
    obtain ⟨k, b⟩ := c
    simp only [Memory.risesFrom, Bool.and_eq_true, decide_eq_true_eq] at h
    by_cases hp : p (k, b) = true
    · simp [hp, Memory.risesFrom, h.1, ih h.2]
    · simp only [List.filter_cons_of_neg hp]
      exact risesFrom_mono (ih h.2) (by omega)

theorem risesFrom_append {lo hi : Nat} {m₁ m₂ : Memory} (h₁ : Memory.risesFrom lo m₁ = true)
    (hb : ∀ c ∈ m₁, c.1 < hi) (h₂ : Memory.risesFrom hi m₂ = true) (hl : lo ≤ hi) :
    Memory.risesFrom lo (m₁ ++ m₂) = true := by
  induction m₁ generalizing lo with
  | nil => exact risesFrom_mono h₂ hl
  | cons c m ih =>
    obtain ⟨k, b⟩ := c
    simp only [Memory.risesFrom, Bool.and_eq_true, decide_eq_true_eq, List.cons_append] at h₁ ⊢
    refine ⟨h₁.1, ih h₁.2 (fun c hc => hb c (by simp [hc])) ?_⟩
    have := hb (k, b) (by simp)
    simp only at this
    omega

theorem risesFrom_cellsFrom (a : Nat) (bs : List Byte) : Memory.risesFrom a (cellsFrom a bs) = true := by
  induction bs generalizing a with
  | nil => rfl
  | cons b bs ih => simp [cellsFrom, Memory.risesFrom, ih]

theorem cellsFrom_bounds (a : Nat) (bs : List Byte) : ∀ c ∈ cellsFrom a bs, a ≤ c.1 ∧ c.1 < a + bs.length := by
  induction bs generalizing a with
  | nil => simp [cellsFrom]
  | cons b bs ih =>
    intro c hc
    simp only [cellsFrom, List.mem_cons] at hc
    rcases hc with rfl | hc
    · simp
    · have := ih (a + 1) c hc
      simp only [List.length_cons]
      omega

theorem risesFrom_of_ge {lo hi : Nat} {m : Memory} (h : Memory.risesFrom lo m = true) (hb : ∀ c ∈ m, hi ≤ c.1) :
    Memory.risesFrom hi m = true := by
  cases m with
  | nil => rfl
  | cons c m =>
    obtain ⟨k, b⟩ := c
    simp only [Memory.risesFrom, Bool.and_eq_true, decide_eq_true_eq] at h ⊢
    exact ⟨hb (k, b) (by simp), h.2⟩

/-- A write inside the 78 bytes keeps the canonical form. -/
theorem wf_writeBytes {m : Memory} (a : Nat) (bs : List Byte) (h : Memory.wf m = true) (hb : a + bs.length ≤ bufferSize) :
    Memory.wf (Memory.writeBytes m a bs) = true := by
  simp only [Memory.wf, Bool.and_eq_true, List.all_eq_true, decide_eq_true_eq] at h ⊢
  obtain ⟨hr, hlt⟩ := h
  unfold Memory.writeBytes
  refine ⟨?_, ?_⟩
  · rw [List.append_assoc]
    refine risesFrom_append (risesFrom_filter _ hr) (hi := a) ?_ ?_ (Nat.zero_le _)
    · intro c hc; simpa using (List.mem_filter.mp hc).2
    · refine risesFrom_append (risesFrom_cellsFrom a bs) (hi := a + bs.length) ?_ ?_ (by omega)
      · intro c hc; exact (cellsFrom_bounds a bs c hc).2
      · refine risesFrom_of_ge (risesFrom_filter _ hr) ?_
        intro c hc; simpa using (List.mem_filter.mp hc).2
  · intro c hc
    simp only [List.mem_append, List.mem_filter] at hc
    rcases hc with (⟨hc, -⟩ | hc) | ⟨hc, -⟩
    · exact hlt c hc
    · have := (cellsFrom_bounds a bs c hc).2; omega
    · exact hlt c hc

/-- The buffers at reset have the canonical form. -/
theorem reset_buffers_wf : Memory.wf State.reset.inbuf = true ∧ Memory.wf State.reset.outbuf = true := ⟨rfl, rfl⟩

/-! ## Reading a sub-buffer -/

theorem readByte_eq_ok {m : Memory} {a : Nat} {b : Byte} :
    Memory.readByte m a = .ok b ↔ a < bufferSize ∧ Memory.read m a = some b := by
  unfold Memory.readByte
  by_cases h : bufferSize ≤ a
  · have h' : ¬(a < bufferSize) := by omega
    simp [h, h']
  · rw [if_neg h]
    have h' : a < bufferSize := by omega
    cases Memory.read m a <;> simp [h']

/-- All a sub-buffer read that succeeds says: the bytes are those of the buffer, in order. -/
theorem readRange_eq_ok {m : Memory} {a n : Nat} {bs : List Byte} :
    Memory.readRange m a n = .ok bs ↔
      bs.length = n ∧ ∀ i, i < n → a + i < bufferSize ∧ Memory.read m (a + i) = bs[i]? := by
  induction n generalizing a bs with
  | zero => cases bs <;> simp [Memory.readRange]
  | succ n ih =>
    cases hb : Memory.readByte m a with
    | error f =>
      simp only [Memory.readRange, hb, reduceCtorEq, false_iff, not_and]
      intro hl hall
      obtain ⟨h1, h2⟩ := hall 0 (by omega)
      have hlen : 0 < bs.length := by omega
      have : Memory.readByte m a = .ok bs[0] := readByte_eq_ok.mpr ⟨by simpa using h1, by simpa [hlen] using h2⟩
      rw [hb] at this; cases this
    | ok b =>
      obtain ⟨hlt, hrd⟩ := readByte_eq_ok.mp hb
      simp only [Memory.readRange, hb]
      cases hr : Memory.readRange m (a + 1) n with
      | error f =>
        simp only [reduceCtorEq, false_iff, not_and]
        intro hl hall
        have : Memory.readRange m (a + 1) n = .ok bs.tail := by
          rw [ih]
          refine ⟨by simp [hl], fun i hi => ?_⟩
          have := hall (i + 1) (by omega)
          rw [show a + (i + 1) = a + 1 + i by omega] at this
          simpa using this
        rw [hr] at this; cases this
      | ok rest =>
        have hi := (ih (a := a + 1) (bs := rest)).mp hr
        simp only [Except.ok.injEq]
        constructor
        · rintro rfl
          refine ⟨by simp [hi.1], fun i hi' => ?_⟩
          cases i with
          | zero => simpa using ⟨hlt, hrd⟩
          | succ i =>
            have := hi.2 i (by omega)
            rw [show a + (i + 1) = a + 1 + i by omega]
            simpa using this
        · rintro ⟨hl, hall⟩
          cases bs with
          | nil => simp at hl
          | cons c cs =>
            have h0 := (hall 0 (by omega)).2
            simp only [Nat.add_zero, hrd, List.getElem?_cons_zero, Option.some.injEq] at h0
            have hcs : Memory.readRange m (a + 1) n = .ok cs := by
              rw [ih]
              refine ⟨by simpa using hl, fun i hi => ?_⟩
              have := hall (i + 1) (by omega)
              rw [show a + (i + 1) = a + 1 + i by omega] at this
              simpa using this
            rw [hr] at hcs
            cases hcs
            rw [h0]

theorem readRange_of_listed {m : Memory} {n : Nat} (h : listedBelow m n) (hn : n ≤ bufferSize) :
    ∃ bs, Memory.readRange m 0 n = .ok bs := by
  refine ⟨(List.range n).map (fun i => (Memory.read m i).getD 0#8), readRange_eq_ok.mpr ⟨by simp, fun i hi => ⟨by omega, ?_⟩⟩⟩
  have := h i hi
  rw [Option.isSome_iff_exists] at this
  obtain ⟨b, hb⟩ := this
  simp [hi, hb]

/-- Bytes written into the buffer are read back. -/
theorem readRange_writeBytes (m : Memory) (a : Nat) (bs : List Byte) (hb : a + bs.length ≤ bufferSize) :
    Memory.readRange (Memory.writeBytes m a bs) a bs.length = .ok bs := by
  refine readRange_eq_ok.mpr ⟨rfl, fun i hi => ⟨by omega, ?_⟩⟩
  rw [read_writeBytes_inside m a bs i hi]; simp [hi]

theorem listedBelow_writeBytes (m : Memory) (bs : List Byte) : listedBelow (Memory.writeBytes m 0 bs) bs.length := by
  intro a ha
  have := read_writeBytes_inside m 0 bs a ha
  simp only [Nat.zero_add] at this
  simp [this]

theorem listedBelow_mono {m : Memory} {n k : Nat} (h : listedBelow m n) (hk : k ≤ n) : listedBelow m k :=
  fun a ha => h a (by omega)

theorem listedBelow_write {m : Memory} {n : Nat} (a : Nat) (bs : List Byte) (h : listedBelow m n) :
    listedBelow (Memory.writeBytes m a bs) n := by
  intro k hk
  rw [read_writeBytes]
  split
  · rename_i hc
    have : k - a < bs.length := by omega
    simp [this]
  · exact h k hk

end Sys2Proof.Machine
end

