-- ==== Sys2Proof/Laws/PerInstr.lean ====
section
/-! SUPPORT. One fact for every operation: its encoding has the format, and carries the match value under the mask, of its row
in spec/opcode_table.json. -/

namespace Sys2Proof.Laws.OpcodeRow

/-- The three formats of spec/opcode_table.json. -/
inductive Format where
  | cmd
  | seq
  | sub
deriving DecidableEq, Repr

/-- The row of an operation: its format, and its match value. The mask goes with the format: the opcode byte of a command word,
the three bits of `PHASE`, the four bits `MODE` and `PHASE`. -/
def row : Instr → Format × Nat
  | .start => (.cmd, 0x0100000000000000)
  | .stop => (.cmd, 0x0200000000000000)
  | .setmotor _ _ => (.cmd, 0x1000000000000000)
  | .setmode _ _ => (.cmd, 0x1100000000000000)
  | .setforce _ _ _ => (.cmd, 0x1200000000000000)
  | .setled _ => (.cmd, 0x1300000000000000)
  | .setpulse _ => (.cmd, 0x1400000000000000)
  | .setbright _ => (.cmd, 0x1500000000000000)
  | .setplayer _ => (.cmd, 0x1600000000000000)
  | .setrgb _ _ _ => (.cmd, 0x1700000000000000)
  | .setmicled _ => (.cmd, 0x1800000000000000)
  | .setmicmute _ => (.cmd, 0x1900000000000000)
  | .detect => (.seq, 0x1)
  | .read => (.seq, 0x2)
  | .decode => (.seq, 0x3)
  | .diff => (.seq, 0x4)
  | .encode => (.seq, 0x5)
  | .write => (.seq, 0x6)
  | .close => (.seq, 0x7)
  | .crc32 => (.sub, 0xD)

/-- An encoding has the format of a row and, under the format's mask, the row's match value. -/
def carries (e : Encoded) (r : Format × Nat) : Prop :=
  match e with
  | .cmd w => r.1 = .cmd ∧ w &&& 0xFF00000000000000#64 = BitVec.ofNat 64 r.2
  | .seq p => r.1 = .seq ∧ p &&& 0x7#3 = BitVec.ofNat 3 r.2
  | .sub x => r.1 = .sub ∧ x &&& 0xF#4 = BitVec.ofNat 4 r.2

/-- The encoding of the operation carries its row. -/
def Statement (i : Instr) : Prop := carries (encode i) (row i)

/-- The opcode byte of a command word under the mask of the format, whatever the other fields. -/
theorem commandWord_masked (op sel : BitVec 8) (a b c : BitVec 16) :
    commandWord op sel a b c &&& 0xFF00000000000000#64 = op.setWidth 64 <<< 56 := by
  have top : ∀ j, j < 8 → (commandWord op sel a b c).getLsbD (56 + j) = op.getLsbD j := by
    intro j hj
    have h := congrArg (fun x : BitVec 8 => x.getLsbD j) (opField_commandWord op sel a b c)
    simpa [opField, hj] using h
  have mask : ∀ i, i < 64 → (0xFF00000000000000#64).getLsbD i = decide (56 ≤ i) := by decide
  apply BitVec.eq_of_getLsbD_eq
  intro i hi
  rw [BitVec.getLsbD_and, mask i hi]
  by_cases h : 56 ≤ i
  · have h3 := top (i - 56) (by omega)
    rw [show 56 + (i - 56) = i by omega] at h3
    rw [h3]
    simp [h, hi, show ¬i < 56 by omega]
  · simp [h, show i < 56 by omega]

theorem start : Statement .start := ⟨rfl, commandWord_masked _ _ _ _ _⟩
theorem stop : Statement .stop := ⟨rfl, commandWord_masked _ _ _ _ _⟩
theorem setmotor (m : Side) (v : Int) : Statement (.setmotor m v) := ⟨rfl, commandWord_masked _ _ _ _ _⟩
theorem setmode (t : Side) (m : Int) : Statement (.setmode t m) := ⟨rfl, commandWord_masked _ _ _ _ _⟩
theorem setforce (t : Side) (k v : Int) : Statement (.setforce t k v) := ⟨rfl, commandWord_masked _ _ _ _ _⟩
theorem setled (v : Int) : Statement (.setled v) := ⟨rfl, commandWord_masked _ _ _ _ _⟩
theorem setpulse (v : Int) : Statement (.setpulse v) := ⟨rfl, commandWord_masked _ _ _ _ _⟩
theorem setbright (v : Int) : Statement (.setbright v) := ⟨rfl, commandWord_masked _ _ _ _ _⟩
theorem setplayer (v : Int) : Statement (.setplayer v) := ⟨rfl, commandWord_masked _ _ _ _ _⟩
theorem setrgb (r g b : Int) : Statement (.setrgb r g b) := ⟨rfl, commandWord_masked _ _ _ _ _⟩
theorem setmicled (v : Int) : Statement (.setmicled v) := ⟨rfl, commandWord_masked _ _ _ _ _⟩
theorem setmicmute (v : Int) : Statement (.setmicmute v) := ⟨rfl, commandWord_masked _ _ _ _ _⟩
theorem detect : Statement .detect := ⟨rfl, rfl⟩
theorem read : Statement .read := ⟨rfl, rfl⟩
theorem decode : Statement .decode := ⟨rfl, rfl⟩
theorem diff : Statement .diff := ⟨rfl, rfl⟩
theorem encode : Statement .encode := ⟨rfl, rfl⟩
theorem write : Statement .write := ⟨rfl, rfl⟩
theorem close : Statement .close := ⟨rfl, rfl⟩
theorem crc32 : Statement .crc32 := ⟨rfl, rfl⟩

end Sys2Proof.Laws.OpcodeRow
end

