-- ==== Sys2Proof/Laws/State.lean ====
section
/-! SUPPORT. What each shared update of State does to each field, true by rfl, so that no later proof unfolds a record update. -/

namespace Sys2Proof.Machine

/-! ## respond -/

@[simp] theorem respond_cfg (s : State) (r : Response) : (s.respond r).cfg = s.cfg := rfl
@[simp] theorem respond_cs (s : State) (r : Response) : (s.respond r).cs = s.cs := rfl
@[simp] theorem respond_po (s : State) (r : Response) : (s.respond r).po = s.po := rfl
@[simp] theorem respond_mode (s : State) (r : Response) : (s.respond r).mode = s.mode := rfl
@[simp] theorem respond_modev (s : State) (r : Response) : (s.respond r).modev = s.modev := rfl
@[simp] theorem respond_run (s : State) (r : Response) : (s.respond r).run = s.run := rfl
@[simp] theorem respond_phase (s : State) (r : Response) : (s.respond r).phase = s.phase := rfl
@[simp] theorem respond_stopreq (s : State) (r : Response) : (s.respond r).stopreq = s.stopreq := rfl
@[simp] theorem respond_err (s : State) (r : Response) : (s.respond r).err = s.err := rfl
@[simp] theorem respond_prev (s : State) (r : Response) : (s.respond r).prev = s.prev := rfl
@[simp] theorem respond_prevv (s : State) (r : Response) : (s.respond r).prevv = s.prevv := rfl
@[simp] theorem respond_ev (s : State) (r : Response) : (s.respond r).ev = s.ev := rfl
@[simp] theorem respond_inbuf (s : State) (r : Response) : (s.respond r).inbuf = s.inbuf := rfl
@[simp] theorem respond_inlen (s : State) (r : Response) : (s.respond r).inlen = s.inlen := rfl
@[simp] theorem respond_outbuf (s : State) (r : Response) : (s.respond r).outbuf = s.outbuf := rfl
@[simp] theorem respond_enc (s : State) (r : Response) : (s.respond r).enc = s.enc := rfl
@[simp] theorem respond_latched (s : State) (r : Response) : (s.respond r).latched = s.latched := rfl
@[simp] theorem respond_latch (s : State) (r : Response) : (s.respond r).latch = s.latch := rfl
@[simp] theorem respond_devOk (s : State) (r : Response) : (s.respond r).devOk = s.devOk := rfl
@[simp] theorem respond_cmds (s : State) (r : Response) : (s.respond r).cmds = s.cmds := rfl
@[simp] theorem respond_held (s : State) (r : Response) : (s.respond r).held = s.held := rfl
@[simp] theorem respond_resps (s : State) (r : Response) : (s.respond r).resps = r :: s.resps := rfl
@[simp] theorem respond_rxQ (s : State) (r : Response) : (s.respond r).rxQ = s.rxQ := rfl
@[simp] theorem respond_txQ (s : State) (r : Response) : (s.respond r).txQ = s.txQ := rfl
@[simp] theorem respond_trace (s : State) (r : Response) : (s.respond r).trace = s.trace := rfl
@[simp] theorem respond_turns (s : State) (r : Response) : (s.respond r).turns = s.turns := rfl

/-! ## release -/

@[simp] theorem release_cfg (s : State) : (s.release).cfg = s.cfg := rfl
@[simp] theorem release_cs (s : State) : (s.release).cs = s.cs := rfl
@[simp] theorem release_po (s : State) : (s.release).po = s.po := rfl
@[simp] theorem release_mode (s : State) : (s.release).mode = s.mode := rfl
@[simp] theorem release_modev (s : State) : (s.release).modev = s.modev := rfl
@[simp] theorem release_run (s : State) : (s.release).run = s.run := rfl
@[simp] theorem release_phase (s : State) : (s.release).phase = s.phase := rfl
@[simp] theorem release_stopreq (s : State) : (s.release).stopreq = s.stopreq := rfl
@[simp] theorem release_err (s : State) : (s.release).err = s.err := rfl
@[simp] theorem release_prev (s : State) : (s.release).prev = s.prev := rfl
@[simp] theorem release_prevv (s : State) : (s.release).prevv = s.prevv := rfl
@[simp] theorem release_ev (s : State) : (s.release).ev = s.ev := rfl
@[simp] theorem release_inbuf (s : State) : (s.release).inbuf = s.inbuf := rfl
@[simp] theorem release_inlen (s : State) : (s.release).inlen = s.inlen := rfl
@[simp] theorem release_outbuf (s : State) : (s.release).outbuf = s.outbuf := rfl
@[simp] theorem release_enc (s : State) : (s.release).enc = s.enc := rfl
@[simp] theorem release_latched (s : State) : (s.release).latched = s.latched := rfl
@[simp] theorem release_latch (s : State) : (s.release).latch = s.latch := rfl
@[simp] theorem release_devOk (s : State) : (s.release).devOk = s.devOk := rfl
@[simp] theorem release_cmds (s : State) : (s.release).cmds = s.cmds := rfl
@[simp] theorem release_held (s : State) : (s.release).held = none := rfl
@[simp] theorem release_resps (s : State) : (s.release).resps = s.resps := rfl
@[simp] theorem release_rxQ (s : State) : (s.release).rxQ = s.rxQ := rfl
@[simp] theorem release_txQ (s : State) : (s.release).txQ = s.txQ := rfl
@[simp] theorem release_trace (s : State) : (s.release).trace = s.trace := rfl
@[simp] theorem release_turns (s : State) : (s.release).turns = s.turns := rfl

/-! ## takeError_command -/

@[simp] theorem takeError_command_cfg (s : State) (e : ErrClass) : (s.takeError e .command).cfg = s.cfg := rfl
@[simp] theorem takeError_command_cs (s : State) (e : ErrClass) : (s.takeError e .command).cs = s.cs := rfl
@[simp] theorem takeError_command_po (s : State) (e : ErrClass) : (s.takeError e .command).po = s.po := rfl
@[simp] theorem takeError_command_mode (s : State) (e : ErrClass) : (s.takeError e .command).mode = s.mode := rfl
@[simp] theorem takeError_command_modev (s : State) (e : ErrClass) : (s.takeError e .command).modev = s.modev := rfl
@[simp] theorem takeError_command_run (s : State) (e : ErrClass) : (s.takeError e .command).run = s.run := rfl
@[simp] theorem takeError_command_phase (s : State) (e : ErrClass) : (s.takeError e .command).phase = s.phase := rfl
@[simp] theorem takeError_command_stopreq (s : State) (e : ErrClass) : (s.takeError e .command).stopreq = s.stopreq := rfl
@[simp] theorem takeError_command_err (s : State) (e : ErrClass) : (s.takeError e .command).err = s.err ||| stickyBit e := rfl
@[simp] theorem takeError_command_prev (s : State) (e : ErrClass) : (s.takeError e .command).prev = s.prev := rfl
@[simp] theorem takeError_command_prevv (s : State) (e : ErrClass) : (s.takeError e .command).prevv = s.prevv := rfl
@[simp] theorem takeError_command_ev (s : State) (e : ErrClass) : (s.takeError e .command).ev = s.ev := rfl
@[simp] theorem takeError_command_inbuf (s : State) (e : ErrClass) : (s.takeError e .command).inbuf = s.inbuf := rfl
@[simp] theorem takeError_command_inlen (s : State) (e : ErrClass) : (s.takeError e .command).inlen = s.inlen := rfl
@[simp] theorem takeError_command_outbuf (s : State) (e : ErrClass) : (s.takeError e .command).outbuf = s.outbuf := rfl
@[simp] theorem takeError_command_enc (s : State) (e : ErrClass) : (s.takeError e .command).enc = s.enc := rfl
@[simp] theorem takeError_command_latched (s : State) (e : ErrClass) : (s.takeError e .command).latched = s.latched := rfl
@[simp] theorem takeError_command_latch (s : State) (e : ErrClass) : (s.takeError e .command).latch = s.latch := rfl
@[simp] theorem takeError_command_devOk (s : State) (e : ErrClass) : (s.takeError e .command).devOk = s.devOk := rfl
@[simp] theorem takeError_command_cmds (s : State) (e : ErrClass) : (s.takeError e .command).cmds = s.cmds := rfl
@[simp] theorem takeError_command_held (s : State) (e : ErrClass) : (s.takeError e .command).held = s.held := rfl
@[simp] theorem takeError_command_resps (s : State) (e : ErrClass) : (s.takeError e .command).resps = .error e :: s.resps := rfl
@[simp] theorem takeError_command_rxQ (s : State) (e : ErrClass) : (s.takeError e .command).rxQ = s.rxQ := rfl
@[simp] theorem takeError_command_txQ (s : State) (e : ErrClass) : (s.takeError e .command).txQ = s.txQ := rfl
@[simp] theorem takeError_command_trace (s : State) (e : ErrClass) : (s.takeError e .command).trace = s.trace := rfl
@[simp] theorem takeError_command_turns (s : State) (e : ErrClass) : (s.takeError e .command).turns = s.turns := rfl

/-! ## takeError_loop -/

@[simp] theorem takeError_loop_cfg (s : State) (e : ErrClass) (p : Phase) : (s.takeError e (.loop p)).cfg = s.cfg := rfl
@[simp] theorem takeError_loop_cs (s : State) (e : ErrClass) (p : Phase) : (s.takeError e (.loop p)).cs = s.cs := rfl
@[simp] theorem takeError_loop_po (s : State) (e : ErrClass) (p : Phase) : (s.takeError e (.loop p)).po = s.po := rfl
@[simp] theorem takeError_loop_mode (s : State) (e : ErrClass) (p : Phase) : (s.takeError e (.loop p)).mode = s.mode := rfl
@[simp] theorem takeError_loop_modev (s : State) (e : ErrClass) (p : Phase) : (s.takeError e (.loop p)).modev = s.modev := rfl
@[simp] theorem takeError_loop_run (s : State) (e : ErrClass) (p : Phase) : (s.takeError e (.loop p)).run = s.run := rfl
@[simp] theorem takeError_loop_phase (s : State) (e : ErrClass) (p : Phase) : (s.takeError e (.loop p)).phase = p := rfl
@[simp] theorem takeError_loop_stopreq (s : State) (e : ErrClass) (p : Phase) : (s.takeError e (.loop p)).stopreq = s.stopreq := rfl
@[simp] theorem takeError_loop_err (s : State) (e : ErrClass) (p : Phase) : (s.takeError e (.loop p)).err = s.err ||| stickyBit e := rfl
@[simp] theorem takeError_loop_prev (s : State) (e : ErrClass) (p : Phase) : (s.takeError e (.loop p)).prev = s.prev := rfl
@[simp] theorem takeError_loop_prevv (s : State) (e : ErrClass) (p : Phase) : (s.takeError e (.loop p)).prevv = s.prevv := rfl
@[simp] theorem takeError_loop_ev (s : State) (e : ErrClass) (p : Phase) : (s.takeError e (.loop p)).ev = s.ev := rfl
@[simp] theorem takeError_loop_inbuf (s : State) (e : ErrClass) (p : Phase) : (s.takeError e (.loop p)).inbuf = s.inbuf := rfl
@[simp] theorem takeError_loop_inlen (s : State) (e : ErrClass) (p : Phase) : (s.takeError e (.loop p)).inlen = s.inlen := rfl
@[simp] theorem takeError_loop_outbuf (s : State) (e : ErrClass) (p : Phase) : (s.takeError e (.loop p)).outbuf = s.outbuf := rfl
@[simp] theorem takeError_loop_enc (s : State) (e : ErrClass) (p : Phase) : (s.takeError e (.loop p)).enc = s.enc := rfl
@[simp] theorem takeError_loop_latched (s : State) (e : ErrClass) (p : Phase) : (s.takeError e (.loop p)).latched = s.latched := rfl
@[simp] theorem takeError_loop_latch (s : State) (e : ErrClass) (p : Phase) : (s.takeError e (.loop p)).latch = s.latch := rfl
@[simp] theorem takeError_loop_devOk (s : State) (e : ErrClass) (p : Phase) : (s.takeError e (.loop p)).devOk = s.devOk := rfl
@[simp] theorem takeError_loop_cmds (s : State) (e : ErrClass) (p : Phase) : (s.takeError e (.loop p)).cmds = s.cmds := rfl
@[simp] theorem takeError_loop_held (s : State) (e : ErrClass) (p : Phase) : (s.takeError e (.loop p)).held = s.held := rfl
@[simp] theorem takeError_loop_resps (s : State) (e : ErrClass) (p : Phase) : (s.takeError e (.loop p)).resps = s.resps := rfl
@[simp] theorem takeError_loop_rxQ (s : State) (e : ErrClass) (p : Phase) : (s.takeError e (.loop p)).rxQ = s.rxQ := rfl
@[simp] theorem takeError_loop_txQ (s : State) (e : ErrClass) (p : Phase) : (s.takeError e (.loop p)).txQ = s.txQ := rfl
@[simp] theorem takeError_loop_trace (s : State) (e : ErrClass) (p : Phase) : (s.takeError e (.loop p)).trace = s.trace := rfl
@[simp] theorem takeError_loop_turns (s : State) (e : ErrClass) (p : Phase) : (s.takeError e (.loop p)).turns = s.turns := rfl

/-! ## tookRead -/

@[simp] theorem tookRead_cfg (s : State) (n : Nat) (q : List RxAnswer) : (s.tookRead n q).cfg = s.cfg := rfl
@[simp] theorem tookRead_cs (s : State) (n : Nat) (q : List RxAnswer) : (s.tookRead n q).cs = s.cs := rfl
@[simp] theorem tookRead_po (s : State) (n : Nat) (q : List RxAnswer) : (s.tookRead n q).po = s.po := rfl
@[simp] theorem tookRead_mode (s : State) (n : Nat) (q : List RxAnswer) : (s.tookRead n q).mode = s.mode := rfl
@[simp] theorem tookRead_modev (s : State) (n : Nat) (q : List RxAnswer) : (s.tookRead n q).modev = s.modev := rfl
@[simp] theorem tookRead_run (s : State) (n : Nat) (q : List RxAnswer) : (s.tookRead n q).run = s.run := rfl
@[simp] theorem tookRead_phase (s : State) (n : Nat) (q : List RxAnswer) : (s.tookRead n q).phase = s.phase := rfl
@[simp] theorem tookRead_stopreq (s : State) (n : Nat) (q : List RxAnswer) : (s.tookRead n q).stopreq = s.stopreq := rfl
@[simp] theorem tookRead_err (s : State) (n : Nat) (q : List RxAnswer) : (s.tookRead n q).err = s.err := rfl
@[simp] theorem tookRead_prev (s : State) (n : Nat) (q : List RxAnswer) : (s.tookRead n q).prev = s.prev := rfl
@[simp] theorem tookRead_prevv (s : State) (n : Nat) (q : List RxAnswer) : (s.tookRead n q).prevv = s.prevv := rfl
@[simp] theorem tookRead_ev (s : State) (n : Nat) (q : List RxAnswer) : (s.tookRead n q).ev = s.ev := rfl
@[simp] theorem tookRead_inbuf (s : State) (n : Nat) (q : List RxAnswer) : (s.tookRead n q).inbuf = s.inbuf := rfl
@[simp] theorem tookRead_inlen (s : State) (n : Nat) (q : List RxAnswer) : (s.tookRead n q).inlen = s.inlen := rfl
@[simp] theorem tookRead_outbuf (s : State) (n : Nat) (q : List RxAnswer) : (s.tookRead n q).outbuf = s.outbuf := rfl
@[simp] theorem tookRead_enc (s : State) (n : Nat) (q : List RxAnswer) : (s.tookRead n q).enc = s.enc := rfl
@[simp] theorem tookRead_latched (s : State) (n : Nat) (q : List RxAnswer) : (s.tookRead n q).latched = s.latched := rfl
@[simp] theorem tookRead_latch (s : State) (n : Nat) (q : List RxAnswer) : (s.tookRead n q).latch = s.latch := rfl
@[simp] theorem tookRead_devOk (s : State) (n : Nat) (q : List RxAnswer) : (s.tookRead n q).devOk = s.devOk := rfl
@[simp] theorem tookRead_cmds (s : State) (n : Nat) (q : List RxAnswer) : (s.tookRead n q).cmds = s.cmds := rfl
@[simp] theorem tookRead_held (s : State) (n : Nat) (q : List RxAnswer) : (s.tookRead n q).held = s.held := rfl
@[simp] theorem tookRead_resps (s : State) (n : Nat) (q : List RxAnswer) : (s.tookRead n q).resps = s.resps := rfl
@[simp] theorem tookRead_rxQ (s : State) (n : Nat) (q : List RxAnswer) : (s.tookRead n q).rxQ = q := rfl
@[simp] theorem tookRead_txQ (s : State) (n : Nat) (q : List RxAnswer) : (s.tookRead n q).txQ = s.txQ := rfl
@[simp] theorem tookRead_trace (s : State) (n : Nat) (q : List RxAnswer) : (s.tookRead n q).trace = .read n :: s.trace := rfl
@[simp] theorem tookRead_turns (s : State) (n : Nat) (q : List RxAnswer) : (s.tookRead n q).turns = s.turns := rfl

/-! ## tookWrite -/

@[simp] theorem tookWrite_cfg (s : State) (r : List Byte) (q : List TxAnswer) : (s.tookWrite r q).cfg = s.cfg := rfl
@[simp] theorem tookWrite_cs (s : State) (r : List Byte) (q : List TxAnswer) : (s.tookWrite r q).cs = s.cs := rfl
@[simp] theorem tookWrite_po (s : State) (r : List Byte) (q : List TxAnswer) : (s.tookWrite r q).po = s.po := rfl
@[simp] theorem tookWrite_mode (s : State) (r : List Byte) (q : List TxAnswer) : (s.tookWrite r q).mode = s.mode := rfl
@[simp] theorem tookWrite_modev (s : State) (r : List Byte) (q : List TxAnswer) : (s.tookWrite r q).modev = s.modev := rfl
@[simp] theorem tookWrite_run (s : State) (r : List Byte) (q : List TxAnswer) : (s.tookWrite r q).run = s.run := rfl
@[simp] theorem tookWrite_phase (s : State) (r : List Byte) (q : List TxAnswer) : (s.tookWrite r q).phase = s.phase := rfl
@[simp] theorem tookWrite_stopreq (s : State) (r : List Byte) (q : List TxAnswer) : (s.tookWrite r q).stopreq = s.stopreq := rfl
@[simp] theorem tookWrite_err (s : State) (r : List Byte) (q : List TxAnswer) : (s.tookWrite r q).err = s.err := rfl
@[simp] theorem tookWrite_prev (s : State) (r : List Byte) (q : List TxAnswer) : (s.tookWrite r q).prev = s.prev := rfl
@[simp] theorem tookWrite_prevv (s : State) (r : List Byte) (q : List TxAnswer) : (s.tookWrite r q).prevv = s.prevv := rfl
@[simp] theorem tookWrite_ev (s : State) (r : List Byte) (q : List TxAnswer) : (s.tookWrite r q).ev = s.ev := rfl
@[simp] theorem tookWrite_inbuf (s : State) (r : List Byte) (q : List TxAnswer) : (s.tookWrite r q).inbuf = s.inbuf := rfl
@[simp] theorem tookWrite_inlen (s : State) (r : List Byte) (q : List TxAnswer) : (s.tookWrite r q).inlen = s.inlen := rfl
@[simp] theorem tookWrite_outbuf (s : State) (r : List Byte) (q : List TxAnswer) : (s.tookWrite r q).outbuf = s.outbuf := rfl
@[simp] theorem tookWrite_enc (s : State) (r : List Byte) (q : List TxAnswer) : (s.tookWrite r q).enc = s.enc := rfl
@[simp] theorem tookWrite_latched (s : State) (r : List Byte) (q : List TxAnswer) : (s.tookWrite r q).latched = s.latched := rfl
@[simp] theorem tookWrite_latch (s : State) (r : List Byte) (q : List TxAnswer) : (s.tookWrite r q).latch = s.latch := rfl
@[simp] theorem tookWrite_devOk (s : State) (r : List Byte) (q : List TxAnswer) : (s.tookWrite r q).devOk = s.devOk := rfl
@[simp] theorem tookWrite_cmds (s : State) (r : List Byte) (q : List TxAnswer) : (s.tookWrite r q).cmds = s.cmds := rfl
@[simp] theorem tookWrite_held (s : State) (r : List Byte) (q : List TxAnswer) : (s.tookWrite r q).held = s.held := rfl
@[simp] theorem tookWrite_resps (s : State) (r : List Byte) (q : List TxAnswer) : (s.tookWrite r q).resps = s.resps := rfl
@[simp] theorem tookWrite_rxQ (s : State) (r : List Byte) (q : List TxAnswer) : (s.tookWrite r q).rxQ = s.rxQ := rfl
@[simp] theorem tookWrite_txQ (s : State) (r : List Byte) (q : List TxAnswer) : (s.tookWrite r q).txQ = q := rfl
@[simp] theorem tookWrite_trace (s : State) (r : List Byte) (q : List TxAnswer) : (s.tookWrite r q).trace = .write r :: s.trace := rfl
@[simp] theorem tookWrite_turns (s : State) (r : List Byte) (q : List TxAnswer) : (s.tookWrite r q).turns = s.turns := rfl

/-! ## closeSession -/

@[simp] theorem closeSession_cfg (s : State) : (s.closeSession).cfg = s.cfg := rfl
@[simp] theorem closeSession_cs (s : State) : (s.closeSession).cs = s.cs := rfl
@[simp] theorem closeSession_po (s : State) : (s.closeSession).po = s.po := rfl
@[simp] theorem closeSession_mode (s : State) : (s.closeSession).mode = s.mode := rfl
@[simp] theorem closeSession_modev (s : State) : (s.closeSession).modev = s.modev := rfl
@[simp] theorem closeSession_run (s : State) : (s.closeSession).run = .stoppedFinal := rfl
@[simp] theorem closeSession_phase (s : State) : (s.closeSession).phase = .idle := rfl
@[simp] theorem closeSession_stopreq (s : State) : (s.closeSession).stopreq = s.stopreq := rfl
@[simp] theorem closeSession_err (s : State) : (s.closeSession).err = s.err := rfl
@[simp] theorem closeSession_prev (s : State) : (s.closeSession).prev = s.prev := rfl
@[simp] theorem closeSession_prevv (s : State) : (s.closeSession).prevv = s.prevv := rfl
@[simp] theorem closeSession_ev (s : State) : (s.closeSession).ev = s.ev := rfl
@[simp] theorem closeSession_inbuf (s : State) : (s.closeSession).inbuf = s.inbuf := rfl
@[simp] theorem closeSession_inlen (s : State) : (s.closeSession).inlen = s.inlen := rfl
@[simp] theorem closeSession_outbuf (s : State) : (s.closeSession).outbuf = s.outbuf := rfl
@[simp] theorem closeSession_enc (s : State) : (s.closeSession).enc = s.enc := rfl
@[simp] theorem closeSession_latched (s : State) : (s.closeSession).latched = s.latched := rfl
@[simp] theorem closeSession_latch (s : State) : (s.closeSession).latch = s.latch := rfl
@[simp] theorem closeSession_devOk (s : State) : (s.closeSession).devOk = s.devOk := rfl
@[simp] theorem closeSession_cmds (s : State) : (s.closeSession).cmds = s.cmds := rfl
@[simp] theorem closeSession_held (s : State) : (s.closeSession).held = s.held := rfl
@[simp] theorem closeSession_resps (s : State) : (s.closeSession).resps = s.resps := rfl
@[simp] theorem closeSession_rxQ (s : State) : (s.closeSession).rxQ = s.rxQ := rfl
@[simp] theorem closeSession_txQ (s : State) : (s.closeSession).txQ = s.txQ := rfl
@[simp] theorem closeSession_trace (s : State) : (s.closeSession).trace = .close :: s.trace := rfl
@[simp] theorem closeSession_turns (s : State) : (s.closeSession).turns = s.turns := rfl

/-! ## cycleBoundary -/

@[simp] theorem cycleBoundary_cfg (s : State) : (s.cycleBoundary).cfg = s.cfg := rfl
@[simp] theorem cycleBoundary_cs (s : State) : (s.cycleBoundary).cs = s.cs := rfl
@[simp] theorem cycleBoundary_po (s : State) : (s.cycleBoundary).po = s.po := rfl
@[simp] theorem cycleBoundary_mode (s : State) : (s.cycleBoundary).mode = s.mode := rfl
@[simp] theorem cycleBoundary_modev (s : State) : (s.cycleBoundary).modev = s.modev := rfl
@[simp] theorem cycleBoundary_run (s : State) : (s.cycleBoundary).run = s.run := rfl
@[simp] theorem cycleBoundary_phase (s : State) : (s.cycleBoundary).phase = if s.stopreq then .close else .read := rfl
@[simp] theorem cycleBoundary_stopreq (s : State) : (s.cycleBoundary).stopreq = s.stopreq := rfl
@[simp] theorem cycleBoundary_err (s : State) : (s.cycleBoundary).err = s.err := rfl
@[simp] theorem cycleBoundary_prev (s : State) : (s.cycleBoundary).prev = s.prev := rfl
@[simp] theorem cycleBoundary_prevv (s : State) : (s.cycleBoundary).prevv = s.prevv := rfl
@[simp] theorem cycleBoundary_ev (s : State) : (s.cycleBoundary).ev = s.ev := rfl
@[simp] theorem cycleBoundary_inbuf (s : State) : (s.cycleBoundary).inbuf = s.inbuf := rfl
@[simp] theorem cycleBoundary_inlen (s : State) : (s.cycleBoundary).inlen = s.inlen := rfl
@[simp] theorem cycleBoundary_outbuf (s : State) : (s.cycleBoundary).outbuf = s.outbuf := rfl
@[simp] theorem cycleBoundary_enc (s : State) : (s.cycleBoundary).enc = s.enc := rfl
@[simp] theorem cycleBoundary_latched (s : State) : (s.cycleBoundary).latched = s.latched := rfl
@[simp] theorem cycleBoundary_latch (s : State) : (s.cycleBoundary).latch = s.latch := rfl
@[simp] theorem cycleBoundary_devOk (s : State) : (s.cycleBoundary).devOk = s.devOk := rfl
@[simp] theorem cycleBoundary_cmds (s : State) : (s.cycleBoundary).cmds = s.cmds := rfl
@[simp] theorem cycleBoundary_held (s : State) : (s.cycleBoundary).held = s.held := rfl
@[simp] theorem cycleBoundary_resps (s : State) : (s.cycleBoundary).resps = s.resps := rfl
@[simp] theorem cycleBoundary_rxQ (s : State) : (s.cycleBoundary).rxQ = s.rxQ := rfl
@[simp] theorem cycleBoundary_txQ (s : State) : (s.cycleBoundary).txQ = s.txQ := rfl
@[simp] theorem cycleBoundary_trace (s : State) : (s.cycleBoundary).trace = s.trace := rfl
@[simp] theorem cycleBoundary_turns (s : State) : (s.cycleBoundary).turns = s.turns := rfl

/-! ## detectFails -/

@[simp] theorem detectFails_cfg (s : State) (e : ErrClass) : (s.detectFails e).cfg = s.cfg := rfl
@[simp] theorem detectFails_cs (s : State) (e : ErrClass) : (s.detectFails e).cs = s.cs := rfl
@[simp] theorem detectFails_po (s : State) (e : ErrClass) : (s.detectFails e).po = s.po := rfl
@[simp] theorem detectFails_mode (s : State) (e : ErrClass) : (s.detectFails e).mode = s.mode := rfl
@[simp] theorem detectFails_modev (s : State) (e : ErrClass) : (s.detectFails e).modev = s.modev := rfl
@[simp] theorem detectFails_run (s : State) (e : ErrClass) : (s.detectFails e).run = .stoppedFinal := rfl
@[simp] theorem detectFails_phase (s : State) (e : ErrClass) : (s.detectFails e).phase = .idle := rfl
@[simp] theorem detectFails_stopreq (s : State) (e : ErrClass) : (s.detectFails e).stopreq = s.stopreq := rfl
@[simp] theorem detectFails_err (s : State) (e : ErrClass) : (s.detectFails e).err = s.err ||| stickyBit e := rfl
@[simp] theorem detectFails_prev (s : State) (e : ErrClass) : (s.detectFails e).prev = s.prev := rfl
@[simp] theorem detectFails_prevv (s : State) (e : ErrClass) : (s.detectFails e).prevv = s.prevv := rfl
@[simp] theorem detectFails_ev (s : State) (e : ErrClass) : (s.detectFails e).ev = s.ev := rfl
@[simp] theorem detectFails_inbuf (s : State) (e : ErrClass) : (s.detectFails e).inbuf = s.inbuf := rfl
@[simp] theorem detectFails_inlen (s : State) (e : ErrClass) : (s.detectFails e).inlen = s.inlen := rfl
@[simp] theorem detectFails_outbuf (s : State) (e : ErrClass) : (s.detectFails e).outbuf = s.outbuf := rfl
@[simp] theorem detectFails_enc (s : State) (e : ErrClass) : (s.detectFails e).enc = s.enc := rfl
@[simp] theorem detectFails_latched (s : State) (e : ErrClass) : (s.detectFails e).latched = s.latched := rfl
@[simp] theorem detectFails_latch (s : State) (e : ErrClass) : (s.detectFails e).latch = s.latch := rfl
@[simp] theorem detectFails_devOk (s : State) (e : ErrClass) : (s.detectFails e).devOk = s.devOk := rfl
@[simp] theorem detectFails_cmds (s : State) (e : ErrClass) : (s.detectFails e).cmds = s.cmds := rfl
@[simp] theorem detectFails_held (s : State) (e : ErrClass) : (s.detectFails e).held = none := rfl
@[simp] theorem detectFails_resps (s : State) (e : ErrClass) : (s.detectFails e).resps = .error e :: s.resps := rfl
@[simp] theorem detectFails_rxQ (s : State) (e : ErrClass) : (s.detectFails e).rxQ = s.rxQ := rfl
@[simp] theorem detectFails_txQ (s : State) (e : ErrClass) : (s.detectFails e).txQ = s.txQ := rfl
@[simp] theorem detectFails_trace (s : State) (e : ErrClass) : (s.detectFails e).trace = .close :: s.trace := rfl
@[simp] theorem detectFails_turns (s : State) (e : ErrClass) : (s.detectFails e).turns = s.turns := rfl

/-! ## sample -/

@[simp] theorem sample_cfg (s : State) (f : PoField) : (s.sample f).cfg = s.cfg := by
  unfold State.sample; split <;> rfl
@[simp] theorem sample_cs (s : State) (f : PoField) : (s.sample f).cs = s.cs := by
  unfold State.sample; split <;> rfl
@[simp] theorem sample_po (s : State) (f : PoField) : (s.sample f).po = s.po := by
  unfold State.sample; split <;> rfl
@[simp] theorem sample_mode (s : State) (f : PoField) : (s.sample f).mode = s.mode := by
  unfold State.sample; split <;> rfl
@[simp] theorem sample_modev (s : State) (f : PoField) : (s.sample f).modev = s.modev := by
  unfold State.sample; split <;> rfl
@[simp] theorem sample_run (s : State) (f : PoField) : (s.sample f).run = s.run := by
  unfold State.sample; split <;> rfl
@[simp] theorem sample_phase (s : State) (f : PoField) : (s.sample f).phase = s.phase := by
  unfold State.sample; split <;> rfl
@[simp] theorem sample_stopreq (s : State) (f : PoField) : (s.sample f).stopreq = s.stopreq := by
  unfold State.sample; split <;> rfl
@[simp] theorem sample_err (s : State) (f : PoField) : (s.sample f).err = s.err := by
  unfold State.sample; split <;> rfl
@[simp] theorem sample_prev (s : State) (f : PoField) : (s.sample f).prev = s.prev := by
  unfold State.sample; split <;> rfl
@[simp] theorem sample_prevv (s : State) (f : PoField) : (s.sample f).prevv = s.prevv := by
  unfold State.sample; split <;> rfl
@[simp] theorem sample_ev (s : State) (f : PoField) : (s.sample f).ev = s.ev := by
  unfold State.sample; split <;> rfl
@[simp] theorem sample_inbuf (s : State) (f : PoField) : (s.sample f).inbuf = s.inbuf := by
  unfold State.sample; split <;> rfl
@[simp] theorem sample_inlen (s : State) (f : PoField) : (s.sample f).inlen = s.inlen := by
  unfold State.sample; split <;> rfl
@[simp] theorem sample_outbuf (s : State) (f : PoField) : (s.sample f).outbuf = s.outbuf := by
  unfold State.sample; split <;> rfl
@[simp] theorem sample_enc (s : State) (f : PoField) : (s.sample f).enc = s.enc := by
  unfold State.sample; split <;> rfl
@[simp] theorem sample_devOk (s : State) (f : PoField) : (s.sample f).devOk = s.devOk := by
  unfold State.sample; split <;> rfl
@[simp] theorem sample_cmds (s : State) (f : PoField) : (s.sample f).cmds = s.cmds := by
  unfold State.sample; split <;> rfl
@[simp] theorem sample_held (s : State) (f : PoField) : (s.sample f).held = s.held := by
  unfold State.sample; split <;> rfl
@[simp] theorem sample_resps (s : State) (f : PoField) : (s.sample f).resps = s.resps := by
  unfold State.sample; split <;> rfl
@[simp] theorem sample_rxQ (s : State) (f : PoField) : (s.sample f).rxQ = s.rxQ := by
  unfold State.sample; split <;> rfl
@[simp] theorem sample_txQ (s : State) (f : PoField) : (s.sample f).txQ = s.txQ := by
  unfold State.sample; split <;> rfl
@[simp] theorem sample_trace (s : State) (f : PoField) : (s.sample f).trace = s.trace := by
  unfold State.sample; split <;> rfl
@[simp] theorem sample_turns (s : State) (f : PoField) : (s.sample f).turns = s.turns := by
  unfold State.sample; split <;> rfl

/-! ## encodeFields -/

@[simp] theorem encodeFields_cfg (s : State) : s.encodeFields.cfg = s.cfg := by
  unfold State.encodeFields; split <;> rfl
@[simp] theorem encodeFields_cs (s : State) : s.encodeFields.cs = s.cs := by
  unfold State.encodeFields; split <;> rfl
@[simp] theorem encodeFields_po (s : State) : s.encodeFields.po = s.po := by
  unfold State.encodeFields; split <;> rfl
@[simp] theorem encodeFields_mode (s : State) : s.encodeFields.mode = s.mode := by
  unfold State.encodeFields; split <;> rfl
@[simp] theorem encodeFields_modev (s : State) : s.encodeFields.modev = s.modev := by
  unfold State.encodeFields; split <;> rfl
@[simp] theorem encodeFields_run (s : State) : s.encodeFields.run = s.run := by
  unfold State.encodeFields; split <;> rfl
@[simp] theorem encodeFields_stopreq (s : State) : s.encodeFields.stopreq = s.stopreq := by
  unfold State.encodeFields; split <;> rfl
@[simp] theorem encodeFields_err (s : State) : s.encodeFields.err = s.err := by
  unfold State.encodeFields; split <;> rfl
@[simp] theorem encodeFields_prev (s : State) : s.encodeFields.prev = s.prev := by
  unfold State.encodeFields; split <;> rfl
@[simp] theorem encodeFields_prevv (s : State) : s.encodeFields.prevv = s.prevv := by
  unfold State.encodeFields; split <;> rfl
@[simp] theorem encodeFields_ev (s : State) : s.encodeFields.ev = s.ev := by
  unfold State.encodeFields; split <;> rfl
@[simp] theorem encodeFields_inbuf (s : State) : s.encodeFields.inbuf = s.inbuf := by
  unfold State.encodeFields; split <;> rfl
@[simp] theorem encodeFields_inlen (s : State) : s.encodeFields.inlen = s.inlen := by
  unfold State.encodeFields; split <;> rfl
@[simp] theorem encodeFields_devOk (s : State) : s.encodeFields.devOk = s.devOk := by
  unfold State.encodeFields; split <;> rfl
@[simp] theorem encodeFields_cmds (s : State) : s.encodeFields.cmds = s.cmds := by
  unfold State.encodeFields; split <;> rfl
@[simp] theorem encodeFields_held (s : State) : s.encodeFields.held = s.held := by
  unfold State.encodeFields; split <;> rfl
@[simp] theorem encodeFields_resps (s : State) : s.encodeFields.resps = s.resps := by
  unfold State.encodeFields; split <;> rfl
@[simp] theorem encodeFields_rxQ (s : State) : s.encodeFields.rxQ = s.rxQ := by
  unfold State.encodeFields; split <;> rfl
@[simp] theorem encodeFields_txQ (s : State) : s.encodeFields.txQ = s.txQ := by
  unfold State.encodeFields; split <;> rfl
@[simp] theorem encodeFields_trace (s : State) : s.encodeFields.trace = s.trace := by
  unfold State.encodeFields; split <;> rfl
@[simp] theorem encodeFields_turns (s : State) : s.encodeFields.turns = s.turns := by
  unfold State.encodeFields; split <;> rfl

@[simp] theorem encodeFields_latched (s : State) : s.encodeFields.latched = [] := by
  unfold State.encodeFields; split <;> rfl

@[simp] theorem encodeFields_latch (s : State) : s.encodeFields.latch = PendingOutput.zero := by
  unfold State.encodeFields; split <;> rfl

@[simp] theorem encodeFields_outbuf (s : State) :
    s.encodeFields.outbuf = Memory.writeBytes s.outbuf 0 (reportBody s.cfg s.mode s.snapshot) := by
  unfold State.encodeFields; split <;> rename_i h <;> simp [h]

/-! ## setter -/

@[simp] theorem setter_cfg (s : State) (b : Bool) (g : PendingOutput → PendingOutput) : (s.setter b g).cfg = s.cfg := by
  cases b <;> rfl
@[simp] theorem setter_cs (s : State) (b : Bool) (g : PendingOutput → PendingOutput) : (s.setter b g).cs = s.cs := by
  cases b <;> rfl
@[simp] theorem setter_mode (s : State) (b : Bool) (g : PendingOutput → PendingOutput) : (s.setter b g).mode = s.mode := by
  cases b <;> rfl
@[simp] theorem setter_modev (s : State) (b : Bool) (g : PendingOutput → PendingOutput) : (s.setter b g).modev = s.modev := by
  cases b <;> rfl
@[simp] theorem setter_run (s : State) (b : Bool) (g : PendingOutput → PendingOutput) : (s.setter b g).run = s.run := by
  cases b <;> rfl
@[simp] theorem setter_phase (s : State) (b : Bool) (g : PendingOutput → PendingOutput) : (s.setter b g).phase = s.phase := by
  cases b <;> rfl
@[simp] theorem setter_stopreq (s : State) (b : Bool) (g : PendingOutput → PendingOutput) : (s.setter b g).stopreq = s.stopreq := by
  cases b <;> rfl
@[simp] theorem setter_err (s : State) (b : Bool) (g : PendingOutput → PendingOutput) : (s.setter b g).err = s.err := by
  cases b <;> simp [State.setter, stickyBit]
@[simp] theorem setter_prev (s : State) (b : Bool) (g : PendingOutput → PendingOutput) : (s.setter b g).prev = s.prev := by
  cases b <;> rfl
@[simp] theorem setter_prevv (s : State) (b : Bool) (g : PendingOutput → PendingOutput) : (s.setter b g).prevv = s.prevv := by
  cases b <;> rfl
@[simp] theorem setter_ev (s : State) (b : Bool) (g : PendingOutput → PendingOutput) : (s.setter b g).ev = s.ev := by
  cases b <;> rfl
@[simp] theorem setter_inbuf (s : State) (b : Bool) (g : PendingOutput → PendingOutput) : (s.setter b g).inbuf = s.inbuf := by
  cases b <;> rfl
@[simp] theorem setter_inlen (s : State) (b : Bool) (g : PendingOutput → PendingOutput) : (s.setter b g).inlen = s.inlen := by
  cases b <;> rfl
@[simp] theorem setter_outbuf (s : State) (b : Bool) (g : PendingOutput → PendingOutput) : (s.setter b g).outbuf = s.outbuf := by
  cases b <;> rfl
@[simp] theorem setter_enc (s : State) (b : Bool) (g : PendingOutput → PendingOutput) : (s.setter b g).enc = s.enc := by
  cases b <;> rfl
@[simp] theorem setter_latched (s : State) (b : Bool) (g : PendingOutput → PendingOutput) : (s.setter b g).latched = s.latched := by
  cases b <;> rfl
@[simp] theorem setter_latch (s : State) (b : Bool) (g : PendingOutput → PendingOutput) : (s.setter b g).latch = s.latch := by
  cases b <;> rfl
@[simp] theorem setter_devOk (s : State) (b : Bool) (g : PendingOutput → PendingOutput) : (s.setter b g).devOk = s.devOk := by
  cases b <;> rfl
@[simp] theorem setter_cmds (s : State) (b : Bool) (g : PendingOutput → PendingOutput) : (s.setter b g).cmds = s.cmds := by
  cases b <;> rfl
@[simp] theorem setter_held (s : State) (b : Bool) (g : PendingOutput → PendingOutput) : (s.setter b g).held = s.held := by
  cases b <;> rfl
@[simp] theorem setter_rxQ (s : State) (b : Bool) (g : PendingOutput → PendingOutput) : (s.setter b g).rxQ = s.rxQ := by
  cases b <;> rfl
@[simp] theorem setter_txQ (s : State) (b : Bool) (g : PendingOutput → PendingOutput) : (s.setter b g).txQ = s.txQ := by
  cases b <;> rfl
@[simp] theorem setter_trace (s : State) (b : Bool) (g : PendingOutput → PendingOutput) : (s.setter b g).trace = s.trace := by
  cases b <;> rfl
@[simp] theorem setter_turns (s : State) (b : Bool) (g : PendingOutput → PendingOutput) : (s.setter b g).turns = s.turns := by
  cases b <;> rfl

/-- All a setter can do: PO changes and the answer is OK, or nothing changes and the answer is DomainRangeError. -/
theorem setter_cases (s : State) (b : Bool) (g : PendingOutput → PendingOutput) :
    (b = true ∧ s.setter b g = { s with po := g s.po, resps := .ok :: s.resps })
    ∨ (b = false ∧ s.setter b g = { s with resps := .error .domainRange :: s.resps }) := by
  cases b
  · right; simp [State.setter, State.takeError, stickyBit]
  · left; simp [State.setter, State.respond]

end Sys2Proof.Machine
end

