-- ==== Sys2Proof/Laws/Report.lean ====
section
/-! SUPPORT. What the encoder's report holds at each offset: the assigned byte, or zero. -/

namespace Sys2Proof.Machine

theorem foldSet_length (l : List (Nat × Byte)) (O : List Byte) :
    (l.foldl (fun O p => O.set p.1 p.2) O).length = O.length := by
  induction l generalizing O with
  | nil => rfl
  | cons p l ih => simp [ih]

theorem foldSet_unassigned (l : List (Nat × Byte)) (O : List Byte) (k : Nat) (h : k ∉ l.map Prod.fst) :
    (l.foldl (fun O p => O.set p.1 p.2) O)[k]? = O[k]? := by
  induction l generalizing O with
  | nil => rfl
  | cons p l ih =>
    simp only [List.map_cons, List.mem_cons, not_or] at h
    simp only [List.foldl_cons]
    rw [ih _ h.2, List.getElem?_set_ne (Ne.symm h.1)]

theorem foldSet_assigned (l : List (Nat × Byte)) (O : List Byte) (k : Nat) (v : Byte) (hn : (l.map Prod.fst).Nodup)
    (hm : (k, v) ∈ l) (hk : k < O.length) : (l.foldl (fun O p => O.set p.1 p.2) O)[k]? = some v := by
  induction l generalizing O with
  | nil => simp at hm
  | cons p l ih =>
    simp only [List.map_cons, List.nodup_cons] at hn
    simp only [List.foldl_cons]
    rcases List.mem_cons.mp hm with rfl | hm
    · rw [foldSet_unassigned _ _ _ hn.1, List.getElem?_set_self hk]
    · exact ih _ hn.2 hm (by simpa using hk)

theorem fieldBytes_offsets (M : OutMap) (po : PendingOutput) : (fieldBytes M po).map Prod.fst = outMapOffsets M := rfl

/-- Where the encoder assigns bytes: the marker, byte 1 in Bluetooth mode, and every offset of `OUTMAP` displaced. -/
theorem assignedBytes_offsets (cfg : Config) (mode : ConnMode) (po : PendingOutput) :
    (assignedBytes cfg mode po).map Prod.fst
      = (markerBytes cfg mode).map Prod.fst ++ (outMapOffsets cfg.outMap).map (· + outShift mode) := by
  rw [← fieldBytes_offsets cfg.outMap po]
  simp [assignedBytes, Function.comp_def]

theorem outMapOk_bounds {M : OutMap} (h : outMapOk M = true) {k : Nat} (hk : k ∈ outMapOffsets M) : 1 ≤ k ∧ k < 64 := by
  simp only [outMapOk, Bool.and_eq_true, List.all_eq_true, decide_eq_true_eq] at h
  exact h.1.1.1 k hk

theorem outMapOk_nodup {M : OutMap} (h : outMapOk M = true) : (outMapOffsets M).Nodup := by
  simp only [outMapOk, Bool.and_eq_true, decide_eq_true_eq] at h
  exact h.2

theorem assignedBytes_nodup {cfg : Config} (h : outMapOk cfg.outMap = true) (mode : ConnMode) (po : PendingOutput) :
    ((assignedBytes cfg mode po).map Prod.fst).Nodup := by
  rw [assignedBytes_offsets]
  have hn := outMapOk_nodup h
  have hb := fun k hk => outMapOk_bounds h (k := k) hk
  have hs : ((outMapOffsets cfg.outMap).map (· + outShift mode)).Nodup :=
    hn.map (fun a b e => by simpa using e)
  cases mode
  · simp only [markerBytes, List.map_cons, List.map_nil, List.cons_append, List.nil_append, List.nodup_cons]
    refine ⟨?_, hs⟩
    simp only [List.mem_map, not_exists, not_and]
    intro k hk
    have := hb k hk
    omega
  · simp only [markerBytes, List.map_cons, List.map_nil, List.cons_append, List.nil_append, List.nodup_cons]
    refine ⟨?_, ?_, hs⟩
    · simp only [List.mem_cons, List.mem_map, not_or, not_exists, not_and]
      exact ⟨by omega, fun k hk => by have := hb k hk; omega⟩
    · simp only [List.mem_map, not_exists, not_and, outShift]
      intro k hk
      have := hb k hk
      omega

theorem assignedBytes_bound {cfg : Config} (h : outMapOk cfg.outMap = true) (mode : ConnMode) (po : PendingOutput)
    {p : Nat × Byte} (hp : p ∈ assignedBytes cfg mode po) : p.1 < 65 ∧ p.1 < outLen mode := by
  have hm : p.1 ∈ (assignedBytes cfg mode po).map Prod.fst := List.mem_map_of_mem hp
  rw [assignedBytes_offsets, List.mem_append] at hm
  rcases hm with hm | hm
  · cases mode <;> simp [markerBytes] at hm <;> simp [outLen] <;> omega
  · obtain ⟨k, hk, e⟩ := List.mem_map.mp hm
    have := outMapOk_bounds h hk
    cases mode <;> simp [outShift] at e <;> simp [outLen] <;> omega

/-- Under the constraints on `OUTMAP` ENCODE never leaves the report. -/
theorem offsetOutside_none {cfg : Config} (h : outMapOk cfg.outMap = true) (mode : ConnMode) (po : PendingOutput) :
    offsetOutside (outLen mode) (assignedBytes cfg mode po) = none := by
  simp only [offsetOutside, Option.map_eq_none_iff, List.find?_eq_none, decide_eq_true_eq]
  intro p hp
  have := assignedBytes_bound h mode po hp
  omega

@[simp] theorem reportBody_length (cfg : Config) (mode : ConnMode) (po : PendingOutput) :
    (reportBody cfg mode po).length = outLen mode := by
  simp [reportBody, foldSet_length]

@[simp] theorem littleEndian4_length (v : BitVec 32) : (littleEndian4 v).length = 4 := rfl

@[simp] theorem encodeReport_length (cfg : Config) (mode : ConnMode) (po : PendingOutput) :
    (encodeReport cfg mode po).length = outLen mode := by
  cases mode <;> simp [encodeReport, crcTail, outLen]

theorem reportBody_assigned {cfg : Config} (h : outMapOk cfg.outMap = true) {mode : ConnMode} {po : PendingOutput}
    {k : Nat} {v : Byte} (hm : (k, v) ∈ assignedBytes cfg mode po) : (reportBody cfg mode po)[k]? = some v :=
  foldSet_assigned _ _ _ _ (assignedBytes_nodup h mode po) hm (by simpa using (assignedBytes_bound h mode po hm).2)

theorem reportBody_unassigned {cfg : Config} {mode : ConnMode} {po : PendingOutput} {k : Nat} (hk : k < outLen mode)
    (hm : k ∉ (assignedBytes cfg mode po).map Prod.fst) : (reportBody cfg mode po)[k]? = some 0#8 := by
  unfold reportBody
  rw [foldSet_unassigned _ _ _ hm]
  simp [hk]

end Sys2Proof.Machine
end

