-- ==== Sys2Proof/Laws/Snapshot.lean ====
section
/-! SUPPORT. Copying one field of PO at a time: what a copy writes, what it leaves alone, and that the fields are all of PO
(spec/20_memory.md R72). -/

namespace Sys2Proof.Machine

@[simp] theorem trig_setTrig_same (po : PendingOutput) (t : Side) (e : TriggerEffect) : (po.setTrig t e).trig t = e := by
  cases t <;> rfl

@[simp] theorem setTrig_setTrig_same (po : PendingOutput) (t : Side) (e e' : TriggerEffect) :
    (po.setTrig t e).setTrig t e' = po.setTrig t e' := by
  cases t <;> rfl

@[simp] theorem setTrig_motorL (po : PendingOutput) (t : Side) (e : TriggerEffect) : (po.setTrig t e).motorL = po.motorL := by
  cases t <;> rfl
@[simp] theorem setTrig_motorR (po : PendingOutput) (t : Side) (e : TriggerEffect) : (po.setTrig t e).motorR = po.motorR := by
  cases t <;> rfl
@[simp] theorem setTrig_ledOption (po : PendingOutput) (t : Side) (e : TriggerEffect) : (po.setTrig t e).ledOption = po.ledOption := by
  cases t <;> rfl
@[simp] theorem setTrig_pulseOption (po : PendingOutput) (t : Side) (e : TriggerEffect) : (po.setTrig t e).pulseOption = po.pulseOption := by
  cases t <;> rfl
@[simp] theorem setTrig_brightness (po : PendingOutput) (t : Side) (e : TriggerEffect) : (po.setTrig t e).brightness = po.brightness := by
  cases t <;> rfl
@[simp] theorem setTrig_player (po : PendingOutput) (t : Side) (e : TriggerEffect) : (po.setTrig t e).player = po.player := by
  cases t <;> rfl
@[simp] theorem setTrig_rgb (po : PendingOutput) (t : Side) (e : TriggerEffect) : (po.setTrig t e).rgb = po.rgb := by
  cases t <;> rfl
@[simp] theorem setTrig_micLed (po : PendingOutput) (t : Side) (e : TriggerEffect) : (po.setTrig t e).micLed = po.micLed := by
  cases t <;> rfl
@[simp] theorem setTrig_micMute (po : PendingOutput) (t : Side) (e : TriggerEffect) : (po.setTrig t e).micMute = po.micMute := by
  cases t <;> rfl

theorem trig_setTrig_ne {t u : Side} (h : t ≠ u) (po : PendingOutput) (e : TriggerEffect) :
    (po.setTrig u e).trig t = po.trig t := by
  cases t <;> cases u <;> first | rfl | exact absurd rfl h

/-- A copied field has the value of its source. -/
@[simp] theorem copy_copy_same (f : PoField) (a b c : PendingOutput) : f.copy (f.copy a b) c = f.copy a c := by
  cases f with
  | trigForce t k => simp [PoField.copy, PendingOutput.setForce]
  | trigMode t => simp [PoField.copy, PendingOutput.setMode]
  | _ => rfl

/-- The last copy of a field counts. -/
@[simp] theorem copy_copy_into (f : PoField) (a b c : PendingOutput) : f.copy a (f.copy b c) = f.copy a c := by
  cases f with
  | trigForce t k =>
    simp only [PoField.copy, PendingOutput.setForce, setTrig_setTrig_same, trig_setTrig_same]
    congr 2
    ext i hi : 1
    simp only [Vector.getElem_setIfInBounds]
    split <;> rfl
  | trigMode t => simp [PoField.copy, PendingOutput.setMode]
  | _ => rfl

/-- Copying another field leaves a field alone. -/
theorem copy_copy_ne {f g : PoField} (h : f ≠ g) (a b c : PendingOutput) : f.copy (g.copy a b) c = f.copy b c := by
  have hside : ∀ (t u : Side) (e : TriggerEffect), (b.setTrig u e).trig t = if t = u then e else b.trig t := by
    intro t u e
    by_cases htu : t = u
    · subst htu; simp
    · simp [htu, trig_setTrig_ne htu]
  cases f <;> cases g <;> try first | rfl | exact absurd rfl h | (rename_i u; cases u <;> rfl) | (rename_i u _; cases u <;> rfl)
  all_goals
    simp only [PoField.copy, PendingOutput.setMode, PendingOutput.setForce, hside]
  all_goals
    split
    · simp_all [Fin.ext_iff, eq_comm]
    · rfl

/-- Copying a list of fields copies each of them and nothing else, in whatever order. -/
theorem copy_foldl (L x : PendingOutput) (f : PoField) : ∀ (l : List PoField) (p : PendingOutput),
    f.copy (l.foldl (fun po g => g.copy L po) p) x = if f ∈ l then f.copy L x else f.copy p x := by
  intro l
  induction l with
  | nil => intro p; simp
  | cons g l ih =>
    intro p
    rw [List.foldl_cons, ih]
    by_cases hl : f ∈ l
    · simp [hl]
    · by_cases hfg : f = g
      · subst hfg; simp
      · simp [hl, hfg, copy_copy_ne hfg]

end Sys2Proof.Machine
end

