-- ==== Sys2Proof/Laws/Step.lean ====
section
/-! SUPPORT. What one step can do, said once. -/

namespace Sys2Proof.Machine

/-- The caller's operations: START, STOP and the setters. -/
def isCommand : Instr → Bool
  | .start => true
  | .stop => true
  | i => isSetter i

/-- A command word selects one of the caller's operations, never a micro-operation. -/
theorem decodeCommand_isCommand {w : Word} {i : Instr} (h : decodeCommand w = .ok i) : isCommand i = true := by
  unfold decodeCommand at h
  split at h
  case h_13 => cases h
  all_goals first
    | (cases h; rfl)
    | (cases hs : sideOfSel (selField w) <;> rw [hs] at h <;> simp [Except.map] at h
       subst h; rfl)

/-- With no turn left nothing happens; else the first turn is taken. -/
theorem step_eq (s : State) :
    step s = match s.turns with
      | [] => .next s
      | k :: rest => takeTurn k { s with turns := rest } := rfl

theorem step_next_cases {s t : State} (h : step s = .next t) :
    (s.turns = [] ∧ t = s) ∨ ∃ k rest, s.turns = k :: rest ∧ takeTurn k { s with turns := rest } = .next t := by
  rw [step_eq] at h
  split at h
  · left; cases h; exact ⟨by assumption, rfl⟩
  · right; exact ⟨_, _, by assumption, h⟩

/-- All a turn of the caller can do: wait, take a held STOP up again, answer an illegal word, or perform a command. -/
theorem callerTurn_next_cases {s t : State} (h : callerTurn s = .next t) :
    t = s ∨ (s.held = some .stop ∧ execStop s = .next t)
    ∨ (∃ w rest, s.held = none ∧ s.cmds = w :: rest
        ∧ ((∃ e, decodeCommand w = .error e
              ∧ t = { s with cmds := rest, resps := .error .illegalCommand :: s.resps })
          ∨ ∃ i, decodeCommand w = .ok i ∧ isCommand i = true ∧ exec i { s with cmds := rest } = .next t)) := by
  unfold callerTurn at h
  split at h
  · left; cases h; rfl
  · right; left; exact ⟨by assumption, h⟩
  · rename_i hh
    split at h
    · left; cases h; rfl
    · rename_i w rest hc
      right; right
      refine ⟨w, rest, hh, hc, ?_⟩
      simp only [decode] at h
      cases hd : decodeCommand w with
      | error e =>
        rw [hd] at h
        left
        refine ⟨e, rfl, ?_⟩
        cases h
        simp [State.takeError, stickyBit]
      | ok i =>
        rw [hd] at h
        right
        exact ⟨i, rfl, decodeCommand_isCommand hd, h⟩

/-- All a turn of the worker can do. -/
theorem workerTurn_next_cases {s t : State} (h : workerTurn s = .next t) :
    t = s
    ∨ (s.run = .running ∧ s.phase = .idle ∧ t = s.cycleBoundary)
    ∨ (s.run = .stoppedInit ∧ s.phase = .detect ∧ execDetect s = .next t)
    ∨ (s.run = .running ∧ s.phase = .read ∧ execRead s = .next t)
    ∨ (s.run = .running ∧ s.phase = .decode ∧ execDecode s = .next t)
    ∨ (s.run = .running ∧ s.phase = .diff ∧ execDiff s = .next t)
    ∨ (s.run = .running ∧ s.phase = .encode ∧ ¬(s.enc = .crcCalled ∧ s.mode = .bt) ∧ execEncode s = .next t)
    ∨ (s.run = .running ∧ s.phase = .encode ∧ s.enc = .crcCalled ∧ s.mode = .bt ∧ execCrc32 s = .next t)
    ∨ (s.run = .running ∧ s.phase = .write ∧ execWrite s = .next t)
    ∨ (s.run = .running ∧ s.phase = .close ∧ execClose s = .next t) := by
  by_cases he : s.run = .running ∧ s.phase = .encode
  · obtain ⟨hr, hp⟩ := he
    by_cases hc : s.enc = .crcCalled ∧ s.mode = .bt
    · simp [workerTurn, State.selector, hr, hp, hc.1, hc.2, decode, decodeSub, modeCode, phaseCode, exec] at h
      simp [hr, hp, hc, h]
    · simp only [workerTurn, State.selector, hr, hp, if_neg hc] at h
      simp only [decode, decodePhase, phaseCode, exec] at h
      simp only [hr, hp]
      right; right; right; right; right; right; left
      exact ⟨trivial, trivial, hc, h⟩
  · cases hr : s.run <;> cases hp : s.phase <;> simp [hr, hp] at he <;> simp [workerTurn, State.selector, hr, hp] at h
    all_goals first
      | (left; exact h.symm)
      | (simp [decode, decodePhase, phaseCode, exec] at h; simp [h])
      | simp [h]

end Sys2Proof.Machine
end

