-- ==== Sys2Proof/Tests/Slice0.lean ====
section
/-! SUPPORT. The model's own tests: ill-formed operations that the check refuses, words written out from the spec's encodings,
the spec's vectors (spec/95_test_vectors.md) one step at a time, and for every statement with hypotheses a state that meets them. -/

namespace Sys2Proof.Tests.Slice0

open Sys2Proof Sys2Proof.Machine

/-! ## The well-formedness check refuses an ill-formed operation of each kind (spec/30_encoding.md R110) -/

theorem test_wf_setmotor : (Instr.setmotor .left 32768).wf = false := by decide
theorem test_wf_setmode : (Instr.setmode .right (-32769)).wf = false := by decide
theorem test_wf_setforce_slot : (Instr.setforce .left 32768 0).wf = false := by decide
theorem test_wf_setforce_value : (Instr.setforce .left 0 (-32769)).wf = false := by decide
theorem test_wf_setled : (Instr.setled 32768).wf = false := by decide
theorem test_wf_setpulse : (Instr.setpulse 32768).wf = false := by decide
theorem test_wf_setbright : (Instr.setbright (-32769)).wf = false := by decide
theorem test_wf_setplayer : (Instr.setplayer 65536).wf = false := by decide
theorem test_wf_setrgb_red : (Instr.setrgb 32768 0 0).wf = false := by decide
theorem test_wf_setrgb_green : (Instr.setrgb 0 32768 0).wf = false := by decide
theorem test_wf_setrgb_blue : (Instr.setrgb 0 0 (-32769)).wf = false := by decide
theorem test_wf_setmicled : (Instr.setmicled 32768).wf = false := by decide
theorem test_wf_setmicmute : (Instr.setmicmute (-32769)).wf = false := by decide
/-- 300 is well formed: its range is checked by the setter, not by the encoding (spec/43_setters.md R211). -/
theorem test_wf_out_of_range_value : (Instr.setmotor .left 300).wf = true := by decide

/-! ## Words written out from the fields of spec/30_encoding.md R110 and R111: op, sel, a, b, c -/

theorem test_decode_start : decode (.cmd 0x01_00_0000_0000_0000#64) = .ok .start := by decide
theorem test_decode_stop : decode (.cmd 0x02_00_0000_0000_0000#64) = .ok .stop := by decide
theorem test_decode_setmotor : decode (.cmd 0x10_00_00C8_0000_0000#64) = .ok (.setmotor .left 200) := by decide
theorem test_decode_setmode : decode (.cmd 0x11_01_0001_0000_0000#64) = .ok (.setmode .right 1) := by decide
theorem test_decode_setforce : decode (.cmd 0x12_00_0002_0100_0000#64) = .ok (.setforce .left 2 256) := by decide
theorem test_decode_setled : decode (.cmd 0x13_00_0003_0000_0000#64) = .ok (.setled 3) := by decide
theorem test_decode_setpulse : decode (.cmd 0x14_00_0002_0000_0000#64) = .ok (.setpulse 2) := by decide
theorem test_decode_setbright : decode (.cmd 0x15_00_0001_0000_0000#64) = .ok (.setbright 1) := by decide
theorem test_decode_setplayer : decode (.cmd 0x16_00_0004_0000_0000#64) = .ok (.setplayer 4) := by decide
theorem test_decode_setrgb : decode (.cmd 0x17_00_00AA_00BB_FFFF#64) = .ok (.setrgb 0xAA 0xBB (-1)) := by decide
theorem test_decode_setmicled : decode (.cmd 0x18_00_8000_0000_0000#64) = .ok (.setmicled (-32768)) := by decide
theorem test_decode_setmicmute : decode (.cmd 0x19_00_7FFF_0000_0000#64) = .ok (.setmicmute 32767) := by decide
theorem test_decode_detect : decode (.seq 0b001#3) = .ok .detect := by decide
theorem test_decode_read : decode (.seq 0b010#3) = .ok .read := by decide
theorem test_decode_decode : decode (.seq 0b011#3) = .ok .decode := by decide
theorem test_decode_diff : decode (.seq 0b100#3) = .ok .diff := by decide
theorem test_decode_encode : decode (.seq 0b101#3) = .ok .encode := by decide
theorem test_decode_write : decode (.seq 0b110#3) = .ok .write := by decide
theorem test_decode_close : decode (.seq 0b111#3) = .ok .close := by decide
theorem test_decode_crc32 : decode (.sub 0b1101#4) = .ok .crc32 := by decide

/-- Unused fields are ignored (spec/30_encoding.md R110): sel, b and c of SETLED hold ones. -/
theorem test_decode_ignores_unused : decode (.cmd 0x13_FF_0003_FFFF_FFFF#64) = .ok (.setled 3) := by decide
/-- V-SET-18. -/
theorem test_decode_unknown_opcode : decode (.cmd 0x20_00_0000_0000_0000#64) = .error (.unknownOpcode 0x20#8) := by decide
/-- V-SET-19. -/
theorem test_decode_bad_selector : decode (.cmd 0x10_02_0005_0000_0000#64) = .error (.badSelector 2#8) := by decide
theorem test_decode_idle_selects_nothing : decode (.seq 0#3) = .error .idlePhase := by decide
theorem test_decode_usb_encode_is_no_crc : decode (.sub 0b0101#4) = .error (.unknownSubOperation 0b0101#4) := by decide

/-- Words as spec/opcode_table.json numbers their bits. -/
theorem test_table_words :
    decodeTableWord 64 0x12_01_0001_00FF_0000 = some (.setforce .right 1 255) ∧ decodeTableWord 8 0x5 = some .encode
    ∧ decodeTableWord 8 0xD = some .crc32 ∧ decodeTableWord 8 0 = none ∧ decodeTableWord 72 0 = none := by decide

/-- The expansions of V-SET-20 and V-SET-22 (first four words). -/
theorem test_pseudo_operations :
    (rumble 200 100).map encode = [.cmd 0x100000C800000000#64, .cmd 0x1001006400000000#64]
    ∧ ((settrig .left 0x02 16 0 300 0 0 0 7).map encode).take 4
      = [.cmd 0x1100000200000000#64, .cmd 0x1200000000100000#64, .cmd 0x1200000100000000#64, .cmd 0x12000002012C0000#64] := by
  decide

/-! ## Helpers -/

/-- The bytes of a number of `n` bytes, the most significant first. -/
def bytesOf (n v : Nat) : List Byte := (List.range n).map (fun i => BitVec.ofNat 8 (v / 256 ^ (n - 1 - i)))

/-- Report A of spec/95_test_vectors.md. -/
def reportA : List Byte :=
  bytesOf 32 0x018000ff7f40ff2a21810500000000001000ffff0080ff7f000100ff00000000
  ++ bytesOf 32 0x0002341f06ffffffff0000000000000000000000001500000000000000000000

/-- Report N of spec/95_test_vectors.md. -/
def reportN : List Byte :=
  bytesOf 32 0x0180808080000000080000000000000000000000000000000000000000000000
  ++ bytesOf 32 0x0080000000800000000000000000000000000000000800000000000000000000

/-- A session in its loop, in the given mode and phase. -/
def inLoop (mode : ConnMode) (p : Phase) : State :=
  { State.reset with mode := mode, modev := true, run := .running, phase := p }

/-- A USB session about to decode the given bytes. -/
def aboutToDecode (bs : List Byte) : State :=
  { inLoop .usb .decode with inbuf := cellsFrom 0 bs, inlen := bs.length }

/-- The USB report and PO of V-ENC-3. -/
def poDistinct : PendingOutput :=
  { motorL := 0x22#8, motorR := 0x11#8, ledOption := 3#8, pulseOption := 2#8, brightness := 1#8, player := 4#8,
    rgb := { r := 0xAA#8, g := 0xBB#8, b := 0xCC#8 },
    trigL := { mode := 0x25#8, force := #v[0x11#8, 0x12#8, 0x13#8, 0x14#8, 0x15#8, 0x16#8, 0x17#8] },
    trigR := { mode := 0x26#8, force := #v[1#8, 2#8, 3#8, 4#8, 5#8, 6#8, 7#8] }, micLed := true, micMute := true }

/-- The answer is a next state of which the test holds. -/
def nextWith (a : Answer) (p : State → Bool) : Bool :=
  match a with
  | .next t => p t
  | .fault _ => false
  | .refused _ => false

/-- The step at a caller's turn with the given command word. -/
def command (s : State) (w : Word) : Answer := step { s with turns := [.caller], cmds := [w] }

/-- PO is as at reset. -/
def poUntouched (t : State) : Bool := t.po == PendingOutput.zero

/-! ## Vectors, one step each -/

/-- V-SET-1 and V-SET-4. -/
theorem test_setmotor :
    nextWith (command State.reset 0x100000C800000000#64)
      (fun t => t.po.motorL == 200#8 && t.po.motorR == 0#8 && t.resps == [.ok]) = true
    ∧ nextWith (command State.reset 0x1000FFFF00000000#64)
      (fun t => poUntouched t && t.err == 0#3 && t.resps == [.error .domainRange]) = true := by decide
/-- V-SET-7 and V-SET-8. -/
theorem test_setmode :
    nextWith (command State.reset 0x1101000300000000#64) (fun t => poUntouched t && t.resps == [.error .domainRange]) = true
    ∧ nextWith (command State.reset 0x110000FC00000000#64)
      (fun t => t.po.trigL.mode == 0xFC#8 && t.po.trigR.mode == 0#8 && t.resps == [.ok]) = true := by decide
/-- V-SET-11: slot 6 is accepted, slot 7 is not. -/
theorem test_setforce :
    nextWith (command State.reset 0x1201000600070000#64)
      (fun t => t.po.trigR.force.toList == [0#8, 0#8, 0#8, 0#8, 0#8, 0#8, 7#8] && t.resps == [.ok]) = true
    ∧ nextWith (command State.reset 0x1201000700000000#64)
      (fun t => poUntouched t && t.resps == [.error .domainRange]) = true := by decide
/-- V-SET-13. -/
theorem test_light_setters :
    nextWith (command State.reset 0x1300000300000000#64) (fun t => t.po.ledOption == 3#8) = true
    ∧ nextWith (command State.reset 0x1400000200000000#64) (fun t => t.po.pulseOption == 2#8) = true
    ∧ nextWith (command State.reset 0x1500000100000000#64) (fun t => t.po.brightness == 1#8) = true
    ∧ nextWith (command State.reset 0x1600000400000000#64) (fun t => t.po.player == 4#8) = true := by decide
/-- V-SET-14, and V-SET-15 from reset with a red that is not zero: one bad channel writes none. -/
theorem test_setrgb :
    nextWith (command State.reset 0x170000AA00BB00CC#64)
      (fun t => t.po.rgb == { r := 0xAA#8, g := 0xBB#8, b := 0xCC#8 }) = true
    ∧ nextWith (command State.reset 0x1700000501000000#64)
      (fun t => poUntouched t && t.resps == [.error .domainRange]) = true := by decide
/-- V-SET-16 and V-SET-17. -/
theorem test_microphone_setters :
    nextWith (command State.reset 0x1800000100000000#64) (fun t => t.po.micLed && !t.po.micMute) = true
    ∧ nextWith (command State.reset 0x1800000200000000#64)
      (fun t => poUntouched t && t.resps == [.error .domainRange]) = true
    ∧ nextWith (command State.reset 0x1900000100000000#64) (fun t => !t.po.micLed && t.po.micMute) = true := by decide

/-- V-SEQ-4 and V-SEQ-5. -/
theorem test_start :
    nextWith (command { State.reset with devOk := false } 0x0100000000000000#64)
      (fun t => t.run == .stoppedFinal && t.err == 0b010#3 && t.trace == [] && t.resps == [.error .deviceUnavailable]) = true
    ∧ nextWith (command (inLoop .usb .read) 0x0100000000000000#64)
      (fun t => t == { inLoop .usb .read with resps := [.error .illegalCommand] }) = true := by decide
/-- V-SEQ-5, and the STOP of program P2: TransportIOError, STOPREQ not set. -/
theorem test_stop :
    nextWith (command State.reset 0x0200000000000000#64)
      (fun t => t.run == .stoppedInit && !t.stopreq && t.resps == [.error .illegalCommand]) = true
    ∧ nextWith (command { State.reset with run := .stoppedFinal, err := 0b101#3 } 0x0200000000000000#64)
      (fun t => !t.stopreq && t.err == 0b101#3 && t.held == none && t.resps == [.error .transportIO]) = true := by decide

/-- A START that waits for the answer of the detection read. -/
def detecting (answer : RxAnswer) : State := { State.reset with phase := .detect, held := some .start, rxQ := [answer] }

/-- V-SEQ-1 with 78 bytes. -/
theorem test_detect :
    nextWith (exec .detect (detecting (.bytes (List.replicate 78 7#8))))
      (fun t => t.mode == .bt && t.modev && t.run == .running && t.phase == .idle && t.err == 0#3 && t.resps == [.ok])
      = true := by decide
/-- V-SEQ-2 with 100 bytes, the length asked for. -/
theorem test_detect_other_length :
    nextWith (exec .detect (detecting (.bytes (List.replicate 100 7#8))))
      (fun t => !t.modev && t.run == .stoppedFinal && t.phase == .idle && t.err == 0b001#3
        && t.trace == [.close, .read 100] && t.resps == [.error .malformedReport]) = true := by decide

/-- A short answer is stored as it is and the bytes beyond it stay (spec/45_sequencer.md R265). -/
theorem test_read_short :
    nextWith (exec .read { inLoop .bt .read with rxQ := [.bytes [5#8, 6#8]], inbuf := [(0, 1#8), (2, 9#8)] })
      (fun t => t.inbuf == [(0, 5#8), (1, 6#8), (2, 9#8)] && t.inlen == 2 && t.phase == .decode) = true := by decide
/-- A failed READ (spec/45_sequencer.md R273). -/
theorem test_read_failed :
    nextWith (exec .read { inLoop .usb .read with rxQ := [.failed] })
      (fun t => t.inlen == 0 && t.inbuf == [] && t.err == 0b100#3 && t.phase == .close) = true := by decide

/-- V-DEC-1. -/
theorem test_decode_report_a :
    nextWith (exec .decode (aboutToDecode reportA))
      (fun t => t.cs.lx.toInt == 0 && t.cs.ly.toInt == -128 && t.cs.rx.toInt == 127 && t.cs.ry.toInt == -1
        && t.cs.cross && !t.cs.square && t.cs.dpadUp && t.cs.dpadRight && !t.cs.dpadDown && t.cs.r3 && t.cs.l1 && !t.cs.l3
        && t.cs.ps && !t.cs.tpclick && t.cs.mic
        && t.cs.accel.x.toInt == 16 && t.cs.accel.z.toInt == -32768 && t.cs.gyro.yaw.toInt == 256
        && t.cs.touch0 == { id := 2#7, active := true, x := 3892#12, y := 97#12 }
        && t.cs.touch1 == { id := 127#7, active := false, x := 4095#12, y := 4095#12 }
        && t.cs.bat == { valid := true, state := 1#4, level := 55#7 }) = true := by decide +kernel
/-- V-DEC-4: 53 bytes are malformed, 54 are not. -/
theorem test_decode_lengths :
    nextWith (exec .decode (aboutToDecode (reportA.take 53)))
      (fun t => t.cs == ControllerState.reset && t.err == 0b001#3 && t.phase == .idle) = true
    ∧ nextWith (exec .decode (aboutToDecode (reportA.take 54)))
      (fun t => t.cs.bat.level == 55#7 && t.err == 0#3 && t.phase == .diff) = true := by decide +kernel

/-- V-DIFF-1. -/
theorem test_diff_first_cycle :
    nextWith (exec .diff { inLoop .usb .diff with cs := fieldsOf reportA })
      (fun t => t.ev == 0#25 && t.prevv && t.prev == t.cs) = true := by decide +kernel
/-- V-DIFF-9. -/
theorem test_diff_many :
    nextWith (exec .diff { inLoop .usb .diff with prev := fieldsOf reportN, prevv := true
                                                  cs := fieldsOf reportA })
      (fun t => t.ev == 0x197E198#25) = true := by decide +kernel

/-- V-ENC-3: the USB report, by one step of ENCODE. -/
theorem test_encode_usb :
    nextWith (exec .encode { inLoop .usb .encode with po := poDistinct })
      (fun t => t.phase == .write && t.outbuf == cellsFrom 0
        (bytesOf 32 0x02ff571122000000000110260102030405060000070025111213141516000017
          ++ bytesOf 32 0x00000000000000030000020104aabbcc00000000000000000000000000000000)) = true := by decide +kernel
/-- V-ENC-1: the checksum tail 09 ab 02 f3, least significant byte first. -/
theorem test_encode_tail :
    nextWith (exec .encode { inLoop .bt .encode with enc := .crcReturned 0xF302AB09#32 })
      (fun t => t.phase == .write && t.outbuf == [(74, 0x09#8), (75, 0xAB#8), (76, 0x02#8), (77, 0xF3#8)]) = true := by decide

/-- V-CRC-2: 74 zero bytes. -/
theorem test_crc_zeros :
    nextWith (exec .crc32 { inLoop .bt .encode with enc := .crcCalled, outbuf := cellsFrom 0 (List.replicate 78 0#8) })
      (fun t => t.enc == .crcReturned 0x0EAA90A9#32) = true := by decide +kernel
/-- V-CRC-3, with the default seed and with seed zero. -/
theorem test_crc_check_value :
    crc32 defaultCrc (bytesOf 9 0x313233343536373839) = 0x63DA9F12#32
    ∧ crc32 { defaultCrc with seed := 0#32 } (bytesOf 9 0x313233343536373839) = 0xCBF43926#32 := by decide +kernel

/-- WRITE hands over exactly 64 bytes over USB though 78 are written (spec/45_sequencer.md R268). -/
theorem test_write :
    nextWith (exec .write { inLoop .usb .write with txQ := [.done], outbuf := cellsFrom 0 (List.replicate 78 3#8) })
      (fun t => t.trace == [.write (List.replicate 64 3#8)] && t.phase == .idle) = true := by decide +kernel

/-- CLOSE (spec/45_sequencer.md R269). -/
theorem test_close :
    nextWith (exec .close (inLoop .usb .close)) (fun t => t.trace == [.close] && t.run == .stoppedFinal && t.phase == .idle)
      = true := by decide

/-- The boundary looks at STOPREQ (spec/45_sequencer.md R264). -/
theorem test_boundary :
    nextWith (step { inLoop .usb .idle with turns := [.worker], stopreq := true }) (fun t => t.phase == .close) = true
    ∧ nextWith (step { inLoop .usb .idle with turns := [.worker] }) (fun t => t.phase == .read) = true := by decide

/-- A field read ahead keeps its value through a later setter (spec/20_memory.md R72). -/
theorem test_snapshot :
    ({ (inLoop .usb .encode).sample .rgb with po := poDistinct } : State).snapshot
      = { poDistinct with rgb := { r := 0#8, g := 0#8, b := 0#8 } } := by decide

/-- One read of the status port (spec/60_exceptions.md R311). -/
theorem test_status_port :
    (inLoop .bt .write).statusPort.mode = 1#1 ∧ (inLoop .bt .write).statusPort.run = 1#2
    ∧ (inLoop .bt .write).statusPort.phase = 6#3 := by decide

/-- V-DIFF-6: the stick pair fires once, with both new values. -/
theorem test_event_port :
    ({ State.reset with ev := 0x0004000#25, cs := { ControllerState.zero with lx := 1#9, ly := 511#9 } } : State).eventPort
      = [(14, some (.stick 1#9 511#9))] := by decide

/-! ## For every statement with hypotheses, a state and operands that meet them

A statement of several clauses has a conjunct for each, at an end of its range. -/

theorem witness_ResetControllerStateValues : (decodeReport defaultConfig .usb reportA).isSome = true := by decide +kernel

theorem witness_DecodeOfEncodeIsIdentity : (Instr.setrgb (-32768) 32767 0).wf = true ∧ (Instr.setforce .left 32767 (-1)).wf = true := by
  decide

theorem witness_IllegalCommandWordsChangeNothing :
    command State.reset 0x2000000000000000#64
      = step { State.reset with turns := .caller :: [], cmds := 0x2000000000000000#64 :: [] }
    ∧ State.reset.held = none
    ∧ decodeCommand 0x2000000000000000#64 = .error (.unknownOpcode 0x20#8)
    ∧ decodeCommand 0x12020000FFFF0000#64 = .error (.badSelector 2#8) := ⟨rfl, rfl, by decide, by decide⟩

theorem witness_DecodedOperationsAreWellFormedAndIgnoreUnusedFields :
    decode (.cmd 0x1000FFFF00000000#64) = .ok (.setmotor .left (-1))
    ∧ opField 0x0100000000000000#64 = opField 0x01FFFFFFFFFFFFFF#64
    ∧ opField 0x1300000300000000#64 = opField 0x13FF0003FFFFFFFF#64
    ∧ aField 0x1300000300000000#64 = aField 0x13FF0003FFFFFFFF#64
    ∧ opField 0x1101000300000000#64 = opField 0x11010003FFFFFFFF#64
    ∧ selField 0x1101000300000000#64 = selField 0x11010003FFFFFFFF#64
    ∧ aField 0x1101000300000000#64 = aField 0x11010003FFFFFFFF#64
    ∧ opField 0x1201000600070000#64 = opField 0x120100060007FFFF#64
    ∧ bField 0x1201000600070000#64 = bField 0x120100060007FFFF#64
    ∧ opField 0x170000AA00BB00CC#64 = opField 0x17FF00AA00BB00CC#64
    ∧ cField 0x170000AA00BB00CC#64 = cField 0x17FF00AA00BB00CC#64 := by decide

/-- A caller's turn with the given words to present. -/
def callerState (ws : List Word) : State := { State.reset with turns := [.caller], cmds := ws }

/-- A worker's turn in the given session. -/
def workerState (s : State) : State := { s with turns := [.worker] }

theorem witness_CallerStepRunsTheDecodedCommand :
    (callerState [0x1300000300000000#64]).turns = [.caller] ∧ (callerState [0x1300000300000000#64]).held = none
    ∧ (callerState [0x1300000300000000#64]).cmds = [0x1300000300000000#64]
    ∧ decode (.cmd 0x1300000300000000#64) = .ok (.setled 3) := by decide

theorem witness_WorkerStepRunsTheSelectedMicroOperation :
    (workerState (inLoop .usb .read)).turns = [.worker]
    ∧ (workerState (inLoop .usb .read)).selector = some (.seq 2#3) ∧ decode (.seq 2#3) = .ok .read
    ∧ (detecting .failed).run = .stoppedInit ∧ (detecting .failed).phase = .detect
    ∧ (inLoop .usb .encode).run = .running ∧ (inLoop .usb .encode).enc ≠ .crcCalled
    ∧ ({ inLoop .bt .encode with enc := .crcCalled } : State).selector = some (.sub 0xD#4)
    ∧ ({ inLoop .bt .encode with enc := .crcCalled } : State).mode = .bt := by decide

theorem witness_PlacedTableWordRunsNext :
    decodeTableWord 64 0x0200000000000000 = some .stop ∧ decodeTableWord 8 7 = some .close
    ∧ decodeTableWord 8 0xD = some .crc32 := by decide

theorem witness_SetmotorWritesOneMotor :
    opField 0x100000C800000000#64 = 0x10#8 ∧ selField 0x100000C800000000#64 = 0#8 ∧ selField 0x1001006400000000#64 = 1#8
    ∧ ((0 : Int) ≤ 255 ∧ (255 : Int) ≤ 255) ∧ ((-1 : Int) < 0) ∧ (255 : Int) < 256 := by decide

theorem witness_SetmodeAcceptsExactlyTheTenModes :
    opField 0x1101000100000000#64 = 0x11#8 ∧ selField 0x1101000100000000#64 = 1#8 ∧ selField 0x110000FC00000000#64 = 0#8
    ∧ (0xFC : Int) ∈ ([0x00, 0x01, 0x02, 0x21, 0x05, 0x25, 0x22, 0x06, 0x26, 0xFC] : List Int)
    ∧ (0x03 : Int) ∉ ([0x00, 0x01, 0x02, 0x21, 0x05, 0x25, 0x22, 0x06, 0x26, 0xFC] : List Int) := by decide

theorem witness_SetforceWritesOneSlot :
    opField 0x1201000600070000#64 = 0x12#8 ∧ selField 0x1201000600070000#64 = 1#8 ∧ selField 0x1200000201000000#64 = 0#8
    ∧ ((0 : Int) ≤ 0 ∧ (0 : Int) ≤ 255) ∧ (6 : Int) < 7 ∧ (255 : Int) < 256 := by decide

theorem witness_LightSettersWriteTheirOneByte :
    opField 0x1300000300000000#64 = 0x13#8 ∧ opField 0x1400000200000000#64 = 0x14#8 ∧ opField 0x1500000100000000#64 = 0x15#8
    ∧ opField 0x1600000400000000#64 = 0x16#8 ∧ ((0 : Int) ≤ 255 ∧ (255 : Int) ≤ 255) ∧ (255 : Int) < 256 := by decide

theorem witness_SetrgbWritesAllChannelsOrNone :
    opField 0x170000AA00BB00CC#64 = 0x17#8 ∧ ((0 : Int) ≤ 0 ∧ (0 : Int) ≤ 255) ∧ ((0 : Int) ≤ 255 ∧ (255 : Int) ≤ 255)
    ∧ (255 : Int) < 256 := by decide

theorem witness_MicrophoneSettersWriteTheirFlag :
    opField 0x1800000100000000#64 = 0x18#8 ∧ opField 0x1900000100000000#64 = 0x19#8 ∧ (2 : Int) ≠ 0 ∧ (2 : Int) ≠ 1 := by decide

theorem witness_SettersChangeNothingButPendingOutput :
    isSetter (.setled 300) = true ∧ exec (.setled 300) State.reset = .next (State.reset.takeError .domainRange .command) :=
  ⟨rfl, rfl⟩

theorem witness_PseudoOperationsRunAsTheirSetters :
    (rumble 255 0).map encode = [0x100000FF00000000#64, 0x1001000000000000#64].map Encoded.cmd
    ∧ (settrig .right 0xFC 1 255 0 0 0 0 0).map encode
      = [0x110100FC00000000#64, 0x1201000000010000#64, 0x1201000100FF0000#64, 0x1201000200000000#64, 0x1201000300000000#64,
         0x1201000400000000#64, 0x1201000500000000#64, 0x1201000600000000#64].map Encoded.cmd
    ∧ (∀ v ∈ ([1, 255, 0, 0, 0, 0, 0] : List Int), 0 ≤ v ∧ v ≤ 255) ∧ State.reset.held = none := by decide

/-- Reset with a turn of the worker to come and a detection answer of 78 bytes. -/
def readyToStart : State := { State.reset with turns := [.worker], rxQ := [.bytes (List.replicate 78 0#8)] }

theorem witness_StartChecksRunThenDevice :
    (inLoop .usb .idle).run ≠ .stoppedInit ∧ State.reset.run = .stoppedInit ∧ State.reset.devOk = true
    ∧ ({ State.reset with devOk := false } : State).devOk = false
    ∧ readyToStart.run = .stoppedInit ∧ readyToStart.devOk = true ∧ 79 ≤ readyToStart.cfg.detectReadLen
    ∧ readyToStart.rxQ = .bytes (List.replicate 78 0#8) :: [] ∧ (List.replicate 64 (0#8 : Byte)).length = 64
    ∧ (List.replicate 78 (0#8 : Byte)).length = 78 ∧ readyToStart.turns = .worker :: [] := by decide

/-- A session that is over, with the given error bits. -/
def ended (err : BitVec 3) : State := { inLoop .usb .idle with run := .stoppedFinal, err := err, trace := [.close] }

theorem witness_StopWaitsForTheWorkerAndReports :
    State.reset.run = .stoppedInit ∧ (inLoop .bt .write).run = .running
    ∧ (ended 0b001#3).run = .stoppedFinal ∧ (ended 0b001#3).err.getLsbD 2 = false ∧ (ended 0b100#3).err.getLsbD 2 = true
    ∧ ({ inLoop .usb .read with turns := [.caller], held := some .stop } : State).held = some .stop := by decide

theorem witness_DetectDecidesTheModeByLength :
    79 ≤ (detecting .failed).cfg.detectReadLen
    ∧ (detecting (.bytes (List.replicate 64 0#8))).rxQ = .bytes (List.replicate 64 0#8) :: []
    ∧ (List.replicate 64 (0#8 : Byte)).length = 64 ∧ (List.replicate 78 (0#8 : Byte)).length = 78
    ∧ (List.replicate 79 (0#8 : Byte)).length ≠ 64 ∧ (List.replicate 79 (0#8 : Byte)).length ≠ 78
    ∧ (detecting .failed).rxQ = .failed :: [] ∧ State.reset.rxQ = [] := by decide

theorem witness_ReadStoresTheAnswerOrGoesToClose :
    ({ inLoop .bt .read with rxQ := [.bytes (List.replicate 78 1#8)] } : State).rxQ = .bytes (List.replicate 78 1#8) :: []
    ∧ (List.replicate 78 (1#8 : Byte)).length ≤ inLen .bt
    ∧ ({ inLoop .bt .read with rxQ := [.failed] } : State).rxQ = .failed :: [] ∧ (inLoop .bt .read).rxQ = [] := by decide

/-- OUTBUF holds 78 bytes of zero. -/
def withZeroOutbuf (s : State) : State := { s with outbuf := Memory.writeBytes [] 0 (List.replicate 78 0#8) }

theorem zeroOutbuf_listed (s : State) : listedBelow (withZeroOutbuf s).outbuf 78 :=
  listedBelow_writeBytes [] (List.replicate 78 0#8)

theorem witness_WriteHandsOverTheWholeReport :
    listedBelow (withZeroOutbuf (inLoop .bt .write)).outbuf (outLen (withZeroOutbuf (inLoop .bt .write)).mode)
    ∧ ({ inLoop .bt .write with txQ := [.failed] } : State).txQ = .failed :: []
    ∧ ({ inLoop .bt .write with txQ := [.done] } : State).txQ = .done :: [] ∧ (inLoop .bt .write).txQ = [] :=
  ⟨zeroOutbuf_listed _, rfl, rfl, rfl⟩

theorem witness_StopreqIsSampledAtTheCycleBoundaryOnly :
    (workerState (inLoop .usb .idle)).run = .running ∧ (workerState (inLoop .usb .idle)).phase = .idle
    ∧ (workerState (inLoop .usb .idle)).stopreq = false ∧ ({ inLoop .usb .idle with stopreq := true } : State).stopreq = true
    ∧ ¬((inLoop .usb .close).run = .running ∧ (inLoop .usb .close).phase = .idle)
    ∧ workerTurn (inLoop .usb .close) = .next (inLoop .usb .close).closeSession :=
  ⟨rfl, rfl, rfl, rfl, by decide, rfl⟩

/-- A session about to decode a report of `n` zero bytes. -/
def zeroReport (mode : ConnMode) (n : Nat) : State :=
  { inLoop mode .decode with inbuf := Memory.writeBytes [] 0 (List.replicate n 0#8), inlen := n }

theorem witness_DecodeReplacesCsOrAbandonsTheCycle :
    listedBelow (zeroReport .bt 55).inbuf (List.replicate 55 (0#8 : Byte)).length ∧ (zeroReport .bt 55).inlen ≤ 78
    ∧ (41 ≤ (zeroReport .bt 55).inlen - inPrefix .bt ∧ 54 ≤ (zeroReport .bt 55).inlen - inPrefix .bt)
    ∧ (batteryExposed defaultConfig .bt = true ∧ (zeroReport .bt 54).inlen - inPrefix .bt < 54)
    ∧ (zeroReport .bt 41).inlen - inPrefix .bt < 41
    ∧ (List.replicate 64 (0#8 : Byte)).length = (if ConnMode.usb = .usb then 64 else 78) :=
  ⟨listedBelow_writeBytes _ _, by decide, by decide, by decide, by decide, by decide⟩

theorem witness_DecodedFields :
    (decodeReport defaultConfig .usb reportA).isSome = true ∧ (decodeReport defaultConfig .bt (0x31#8 :: reportA)).isSome = true
    ∧ batteryExposed defaultConfig .bt = true := by decide +kernel

/-- Two reports that differ in byte 7 and in bit 3 of byte 10 only. -/
theorem witness_UninterpretedBytesDoNotMatter :
    (reportN.set 7 1#8).set 10 8#8 ≠ reportN
    ∧ reportN.length = ((reportN.set 7 1#8).set 10 8#8).length
    ∧ (∀ i, i ∈ [1, 2, 3, 4, 5, 6, 8, 9] ++ (List.range 12).map (· + 16) ++ (List.range 8).map (· + 33) ++ [53] →
        reportN[i + inPrefix .usb]? = ((reportN.set 7 1#8).set 10 8#8)[i + inPrefix .usb]?)
    ∧ reportN[10 + inPrefix .usb]? = some 0#8 ∧ ((reportN.set 7 1#8).set 10 8#8)[10 + inPrefix .usb]? = some 8#8
    ∧ (0#8 : Byte).toNat % 8 = (8#8 : Byte).toNat % 8 := by decide +kernel

theorem witness_BluetoothReportIsPrefixAndPayload : defaultConfig.batteryExposedBt = defaultConfig.batteryExposedUsb := by decide

theorem witness_DiffRaisesTheChangedSignals :
    (inLoop .usb .diff).prevv = false ∧ ({ inLoop .usb .diff with prevv := true } : State).prevv = true := by decide

theorem witness_EventPortPresentsTheNewValues :
    configOk (inLoop .usb .diff).cfg = true
    ∧ exec .diff (inLoop .usb .diff)
      = .next { inLoop .usb .encode with ev := 0#25, prev := ControllerState.reset, prevv := true } := ⟨by decide, rfl⟩

theorem witness_EncodeWritesItsFields :
    outMapOk (inLoop .bt .encode).cfg.outMap = true ∧ (inLoop .bt .encode).enc = .start := by decide

theorem witness_EncodeWritesTheChecksumTail :
    ({ inLoop .bt .encode with enc := .crcReturned 0#32 } : State).enc = .crcReturned 0#32 := rfl

theorem witness_CrcReturnsTheChecksumAndWritesNothing :
    listedBelow (withZeroOutbuf (inLoop .bt .encode)).outbuf (withZeroOutbuf (inLoop .bt .encode)).cfg.crc.cover
    ∧ (withZeroOutbuf (inLoop .bt .encode)).cfg.crc.cover ≤ 78 :=
  ⟨listedBelow_mono (zeroOutbuf_listed _) (by decide), by decide⟩

theorem witness_WholeEncodeLeavesTheReportInOutbuf :
    ({ inLoop .bt .encode with turns := List.replicate 3 .worker } : State).turns = List.replicate 3 Turn.worker ++ []
    ∧ ({ inLoop .usb .encode with turns := List.replicate 1 .worker } : State).turns = List.replicate 1 Turn.worker ++ []
    ∧ outMapOk defaultConfig.outMap = true ∧ defaultConfig.crc.cover ≤ 78 ∧ (inLoop .bt .encode).run = .running
    ∧ (inLoop .bt .encode).phase = .encode ∧ (inLoop .bt .encode).enc = .start
    ∧ (inLoop .bt .encode).mode ≠ .usb ∧ (inLoop .usb .encode).mode = .usb := by decide

theorem witness_ReportStatements :
    outMapOk defaultConfig.outMap = true ∧ defaultConfig.crc.cover = 74 ∧ defaultConfig.btByte1 = 0x02#8 := by decide

theorem witness_UnassignedReportBytesAreZero :
    73 < outLen .bt ∧ (73 ≠ 1 ∧ 73 < 74) ∧ (∀ j ∈ outMapOffsets defaultConfig.outMap, 73 ≠ j + outShift .bt)
    ∧ (∀ j ∈ outMapOffsets defaultConfig.outMap, 5 ≠ j + outShift .usb) := by decide

theorem witness_EncodeSeesEachFieldAtTheMomentItIsRead :
    (inLoop .usb .encode).run = .running ∧ (inLoop .usb .encode).phase = .encode ∧ (inLoop .usb .encode).enc = .start
    ∧ (inLoop .usb .encode).cfg.snapshotPolicy = .perField ∧ (inLoop .usb .encode).latched = []
    ∧ PoField.trigForce .left 6 ≠ PoField.trigMode .left
    ∧ PoField.trigForce .left 6 ∉ (inLoop .usb .encode).latched
    ∧ ({ inLoop .usb .encode with turns := [.sample .rgb] } : State).turns = .sample .rgb :: []
    ∧ PoField.rgb ∈ ((inLoop .usb .encode).sample .rgb).latched
    ∧ PoField.micMute ∉ ((inLoop .usb .encode).sample .rgb).latched
    ∧ PoField.rgb.copy PendingOutput.zero PendingOutput.zero = PendingOutput.zero
    ∧ ({ defaultConfig with snapshotPolicy := .whole } : Config).snapshotPolicy = .whole := by decide

theorem witness_ChecksumStatements :
    defaultCrc.reflected = true ∧ defaultCrc.poly.getLsbD 31 = true ∧ (0x00#8 : Byte) ≠ 0x80#8
    ∧ defaultCrc.complementIn = defaultCrc.complementOut := by decide

theorem witness_UnwrittenBytesAndOutsideOffsetsStopTheReader :
    ({ State.reset with inlen := 78 } : State).inlen ≤ 78 ∧ 77 < ({ State.reset with inlen := 78 } : State).inlen
    ∧ Memory.read State.reset.inbuf 77 = none ∧ Memory.read State.reset.outbuf 63 = none
    ∧ ({ inLoop .usb .write with txQ := [.done] } : State).txQ = .done :: [] ∧ 63 < outLen (inLoop .usb .write).mode
    ∧ State.reset.cfg.crc.cover ≤ 78 ∧ 73 < State.reset.cfg.crc.cover
    ∧ 78 < ({ defaultCrc with cover := 79 } : CrcParams).cover
    ∧ (inLoop .usb .encode).enc = .start
    ∧ 64 ∈ outMapOffsets { defaultOutMap with player := 64 } ∧ outLen .usb ≤ 64 + outShift .usb := by decide

theorem witness_WholeMachineRules :
    step { State.reset with turns := [.worker], err := 0b001#3 } = .next { State.reset with err := 0b001#3 }
    ∧ nextWith (step (workerState (detecting (.bytes (List.replicate 64 0#8))))) (fun t => t.modev && t.run == .running) = true
    ∧ nextWith (step (workerState (detecting .failed))) (fun t => t.run == .stoppedFinal) = true
    ∧ nextWith (step (workerState (inLoop .usb .close))) (fun t => t.run == .stoppedFinal) = true
    ∧ callerTurn (callerState []) = .next (callerState [])
    ∧ workerTurn (inLoop .usb .close) = .next (inLoop .usb .close).closeSession :=
  ⟨rfl, by decide, by decide, by decide, rfl, rfl⟩

theorem witness_AfterTheEndOnlyPendingOutputChanges :
    (ended 0#3).run = .stoppedFinal ∧ step (workerState (ended 0#3)) = .next { ended 0#3 with turns := [] } := ⟨rfl, rfl⟩

/-- A session whose loop has ended while STOP waits, at the caller's turn. -/
def stopAnswered : State := { ended 0#3 with turns := [.caller], held := some .stop, stopreq := true }

theorem witness_StopAnswersOnlyAfterTheLoopHasEnded :
    SequencerOk stopAnswered ∧ stopAnswered.held = some .stop ∧ stopAnswered.err.getLsbD 1 = false
    ∧ step stopAnswered = .next { ended 0#3 with stopreq := true, resps := .ok :: stopAnswered.resps } :=
  ⟨{ initPhase := by decide, initFlags := by decide, detectForStart := by decide, detectOnlyInit := by decide
     runningMode := by decide, runningErr := by decide, finalPhase := by decide, stopWaits := by decide
     encStage := fun h => absurd rfl h, writeReady := (fun h => by cases h), latchedInEncode := fun h => absurd rfl h
     latchedOnce := by decide, closedOnce := by decide }, rfl, rfl, rfl⟩

theorem witness_StopHangsWhileReadIsUnanswered :
    ({ inLoop .usb .read with held := some .stop } : State).run = .running
    ∧ ({ inLoop .usb .read with held := some .stop } : State).phase = .read
    ∧ ({ inLoop .usb .read with held := some .stop } : State).rxQ = []
    ∧ ({ inLoop .usb .read with held := some .stop } : State).held = some .stop := by decide

theorem witness_StepKeepsBuffersCanonical :
    Memory.wf [(0, 5#8), (77, 6#8)] = true ∧ Memory.wf [(0, 5#8), (0, 6#8)] = false ∧ Memory.wf [(78, 5#8)] = false := by decide

theorem reset_csOk : csOk ControllerState.reset := by unfold csOk; decide

theorem zero_csOk : csOk ControllerState.zero := by unfold csOk; decide

theorem zero_poOk : poOk PendingOutput.zero := by unfold poOk; decide

theorem witness_StepKeepsRegisterRanges : csOk ControllerState.reset ∧ poOk poDistinct :=
  ⟨reset_csOk, by unfold poOk; decide⟩

/-- A USB session at the cycle boundary with a report and a write answered. -/
def atBoundary : State :=
  { inLoop .usb .idle with rxQ := [.bytes reportN], txQ := [.done], turns := List.replicate 6 .worker }

theorem atBoundary_inv : Inv atBoundary where
  config := by decide
  cs := reset_csOk
  prev := zero_csOk
  po := zero_poOk
  latch := zero_poOk
  buffers :=
    { inbufWf := rfl, outbufWf := rfl, inlenBound := by decide, reportStored := fun a ha => absurd ha (Nat.not_lt_zero a) }
  sequencer :=
    { initPhase := by decide, initFlags := by decide, detectForStart := by decide, detectOnlyInit := by decide
      runningMode := by decide, runningErr := by decide, finalPhase := by decide, stopWaits := by decide
      encStage := fun h => absurd rfl h, writeReady := (fun h => by cases h), latchedInEncode := fun h => absurd rfl h
      latchedOnce := by decide, closedOnce := by decide }

theorem witness_StepKeepsTheInvariant :
    Inv atBoundary ∧ step atBoundary = .next { atBoundary with phase := .read, turns := List.replicate 5 .worker } :=
  ⟨atBoundary_inv, rfl⟩

theorem witness_OneCycleReadsDecodesComparesEncodesWrites :
    Inv atBoundary ∧ atBoundary.run = .running ∧ atBoundary.phase = .idle ∧ atBoundary.stopreq = false
    ∧ atBoundary.rxQ = .bytes reportN :: [] ∧ reportN.length = inLen atBoundary.mode ∧ atBoundary.txQ = .done :: []
    ∧ 6 = (if atBoundary.mode = .usb then 6 else 8) ∧ atBoundary.turns = List.replicate 6 Turn.worker ++ [] :=
  ⟨atBoundary_inv, rfl, rfl, rfl, rfl, by decide, rfl, rfl, rfl⟩

end Sys2Proof.Tests.Slice0
end

section
/-! SUPPORT. What each operation can do, said once: if it answers a next state, then one of the listed cases holds. -/

namespace Sys2Proof.Machine

/-! ## The caller's operations -/

/-- A command is START, STOP or a setter. -/
theorem isCommand_cases {i : Instr} (h : isCommand i = true) : i = .start ∨ i = .stop ∨ isSetter i = true := by
  cases i with
  | start => exact .inl rfl
  | stop => exact .inr (.inl rfl)
  | _ => exact .inr (.inr h)

/-- Every setter is `State.setter`, with checks and a write that do not depend on the state. -/
theorem exec_of_isSetter {i : Instr} (h : isSetter i = true) :
    ∃ (b : Bool) (g : PendingOutput → PendingOutput), ∀ s : State, exec i s = .next (s.setter b g) := by
  cases i with
  | start | stop | detect | read | decode | diff | encode | write | close | crc32 => cases h
  | setmotor | setmode | setforce | setled | setpulse | setbright | setplayer | setrgb | setmicled | setmicmute =>
    exact ⟨_, _, fun _ => rfl⟩

theorem execStart_next_cases {s t : State} (h : execStart s = .next t) :
    (s.run ≠ .stoppedInit ∧ t = s.takeError .illegalCommand .command)
    ∨ (s.run = .stoppedInit ∧ s.devOk = true ∧ t = { s with phase := .detect, held := some .start })
    ∨ (s.run = .stoppedInit ∧ s.devOk = false
        ∧ t = { s with run := .stoppedFinal }.takeError .deviceUnavailable .command) := by
  unfold execStart at h
  split at h
  · next hrun => cases h; exact .inl ⟨hrun, rfl⟩
  · next hrun =>
    have hinit : s.run = .stoppedInit := Decidable.not_not.mp hrun
    split at h
    · next hdev => cases h; exact .inr (.inl ⟨hinit, hdev, rfl⟩)
    · next hdev => cases h; exact .inr (.inr ⟨hinit, Bool.eq_false_of_not_eq_true hdev, rfl⟩)

theorem execStop_next_cases {s t : State} (h : execStop s = .next t) :
    (s.run = .stoppedInit ∧ t = s.takeError .illegalCommand .command)
    ∨ (s.run = .running ∧ t = { s with stopreq := true, held := some .stop })
    ∨ (s.run = .stoppedFinal ∧ transportFailed s.err = true ∧ t = s.release.takeError .transportIO .command)
    ∨ (s.run = .stoppedFinal ∧ transportFailed s.err = false ∧ t = s.release.respond .ok) := by
  unfold execStop at h
  split at h
  · next hrun => cases h; exact .inl ⟨hrun, rfl⟩
  · next hrun => cases h; exact .inr (.inl ⟨hrun, rfl⟩)
  · next hrun =>
    split at h
    · next herr => cases h; exact .inr (.inr (.inl ⟨hrun, herr, rfl⟩))
    · next herr => cases h; exact .inr (.inr (.inr ⟨hrun, Bool.eq_false_of_not_eq_true herr, rfl⟩))

/-! ## The worker's operations -/

/-- DETECT waits, or the answer fails, or its length is no mode's, or its length tells the mode and START is complete. -/
theorem execDetect_next_cases {s t : State} (h : execDetect s = .next t) :
    (s.rxQ = [] ∧ t = s)
    ∨ (∃ rest, s.rxQ = .failed :: rest ∧ t = (s.tookRead s.cfg.detectReadLen rest).detectFails .transportIO)
    ∨ (∃ bs rest, s.rxQ = .bytes bs :: rest ∧ modeOfLength (bs.take s.cfg.detectReadLen).length = none
        ∧ t = (s.tookRead s.cfg.detectReadLen rest).detectFails .malformedReport)
    ∨ (∃ bs rest m, s.rxQ = .bytes bs :: rest ∧ modeOfLength (bs.take s.cfg.detectReadLen).length = some m
        ∧ t = ({ s.tookRead s.cfg.detectReadLen rest with
                  mode := m, modev := true, run := .running, phase := .idle } : State).release.respond .ok) := by
  unfold execDetect at h
  split at h
  · next hq => cases h; exact .inl ⟨hq, rfl⟩
  · next rest hq => cases h; exact .inr (.inl ⟨rest, hq, rfl⟩)
  · next bs rest hq =>
    split at h
    · next m hm => cases h; exact .inr (.inr (.inr ⟨bs, rest, m, hq, hm, rfl⟩))
    · next hm => cases h; exact .inr (.inr (.inl ⟨bs, rest, hq, hm, rfl⟩))

/-- READ waits, or the answer fails, or the answer is stored. -/
theorem execRead_next_cases {s t : State} (h : execRead s = .next t) :
    (s.rxQ = [] ∧ t = s)
    ∨ (∃ rest, s.rxQ = .failed :: rest
        ∧ t = (s.tookRead (inLen s.mode) rest).takeError .transportIO (.loop .close))
    ∨ (∃ bs rest, s.rxQ = .bytes bs :: rest
        ∧ t = { s.tookRead (inLen s.mode) rest with
                inbuf := Memory.writeBytes s.inbuf 0 (bs.take (inLen s.mode))
                inlen := (bs.take (inLen s.mode)).length
                phase := .decode }) := by
  unfold execRead at h
  split at h
  · next hq => cases h; exact .inl ⟨hq, rfl⟩
  · next rest hq => cases h; exact .inr (.inl ⟨rest, hq, rfl⟩)
  · next bs rest hq => cases h; exact .inr (.inr ⟨bs, rest, hq, rfl⟩)

/-- DECODE replaces CS, or takes MalformedReportError. -/
theorem execDecode_next_cases {s t : State} (h : execDecode s = .next t) :
    ∃ raw, Memory.readRange s.inbuf 0 s.inlen = .ok raw
      ∧ ((∃ cs, decodeReport s.cfg s.mode raw = some cs ∧ t = { s with cs := cs, phase := .diff })
        ∨ (decodeReport s.cfg s.mode raw = none
            ∧ t = s.takeError .malformedReport (.loop (malformedNext s.cfg.malformedPolicy)))) := by
  unfold execDecode at h
  split at h
  · cases h
  · next raw hraw =>
    refine ⟨raw, hraw, ?_⟩
    split at h
    · next cs hcs => cases h; exact .inl ⟨cs, hcs, rfl⟩
    · next hcs => cases h; exact .inr ⟨hcs, rfl⟩

/-- ENCODE writes the checksum tail when CRC32 has returned, else its fields. -/
theorem execEncode_next_cases {s t : State} (h : execEncode s = .next t) :
    (∃ crc, s.enc = .crcReturned crc
      ∧ t = { s with outbuf := Memory.writeBytes s.outbuf crcTail (littleEndian4 crc), enc := .start, phase := .write })
    ∨ ((s.enc = .start ∨ s.enc = .crcCalled)
      ∧ offsetOutside (outLen s.mode) (assignedBytes s.cfg s.mode s.snapshot) = none ∧ t = s.encodeFields) := by
  cases henc : s.enc with
  | crcReturned crc =>
    simp only [execEncode, henc] at h
    cases h
    exact .inl ⟨crc, rfl, rfl⟩
  | start | crcCalled =>
    simp only [execEncode, henc] at h
    split at h
    · cases h
    · next hoff => cases h; exact .inr ⟨by simp, hoff, rfl⟩

/-- CRC32 gives its result to the ENCODE in progress. -/
theorem execCrc32_next {s t : State} (h : execCrc32 s = .next t) :
    ∃ B, Memory.readRange s.outbuf 0 s.cfg.crc.cover = .ok B ∧ t = { s with enc := .crcReturned (crc32 s.cfg.crc B) } := by
  unfold execCrc32 at h
  split at h
  · cases h
  · next B hB => cases h; exact ⟨B, hB, rfl⟩

/-- WRITE waits, or hands the report over and the transport fails or is done. -/
theorem execWrite_next_cases {s t : State} (h : execWrite s = .next t) :
    (s.txQ = [] ∧ t = s)
    ∨ (∃ report rest, Memory.readRange s.outbuf 0 (outLen s.mode) = .ok report
      ∧ ((s.txQ = .failed :: rest ∧ t = (s.tookWrite report rest).takeError .transportIO (.loop .close))
        ∨ (s.txQ = .done :: rest ∧ t = { s.tookWrite report rest with phase := .idle }))) := by
  unfold execWrite at h
  split at h
  · next hq => cases h; exact .inl ⟨hq, rfl⟩
  · next answer rest hq =>
    split at h
    · cases h
    · next report hreport =>
      refine .inr ⟨report, rest, hreport, ?_⟩
      cases answer with
      | failed => cases h; exact .inl ⟨hq, rfl⟩
      | done => cases h; exact .inr ⟨hq, rfl⟩

end Sys2Proof.Machine
end

section
/-! PROOFS. The parameters and MODE are fixed for the session (spec/00_scope.md R7). -/

namespace Sys2Proof.Machine

/-- The parameters, MODE and MODEV are the same in both states. -/
def SameSession (s t : State) : Prop := t.cfg = s.cfg ∧ t.mode = s.mode ∧ t.modev = s.modev

theorem sameSession_refl (s : State) : SameSession s s := ⟨rfl, rfl, rfl⟩

/-- What a completed detection leaves of the parameters, MODEV and RUN (spec/10_state.md R41, spec/45_sequencer.md R262). -/
def Detected (s t : State) : Prop := t.cfg = s.cfg ∧ t.run = .running ∧ t.modev = true

/-! ## The caller's operations -/

theorem execStart_sameSession {s t : State} (h : execStart s = .next t) : SameSession s t := by
  obtain ⟨-, rfl⟩ | ⟨-, -, rfl⟩ | ⟨-, -, rfl⟩ := execStart_next_cases h <;> exact ⟨rfl, rfl, rfl⟩

theorem execStop_sameSession {s t : State} (h : execStop s = .next t) : SameSession s t := by
  obtain ⟨-, rfl⟩ | ⟨-, rfl⟩ | ⟨-, -, rfl⟩ | ⟨-, -, rfl⟩ := execStop_next_cases h <;> exact ⟨rfl, rfl, rfl⟩

theorem setter_sameSession (s : State) (b : Bool) (g : PendingOutput → PendingOutput) : SameSession s (s.setter b g) :=
  ⟨setter_cfg s b g, setter_mode s b g, setter_modev s b g⟩

theorem exec_command_sameSession {i : Instr} (hi : isCommand i = true) {s t : State} (h : exec i s = .next t) :
    SameSession s t := by
  obtain rfl | rfl | hset := isCommand_cases hi
  · exact execStart_sameSession h
  · exact execStop_sameSession h
  · obtain ⟨b, g, hexec⟩ := exec_of_isSetter hset
    rw [hexec] at h
    cases h
    exact setter_sameSession s b g

theorem callerTurn_sameSession {s t : State} (h : callerTurn s = .next t) : SameSession s t := by
  obtain rfl | ⟨-, hstop⟩ | ⟨w, rest, -, -, ⟨e, -, rfl⟩ | ⟨i, -, hi, hexec⟩⟩ := callerTurn_next_cases h
  · exact sameSession_refl _
  · exact execStop_sameSession hstop
  · exact ⟨rfl, rfl, rfl⟩
  · exact exec_command_sameSession (s := { s with cmds := rest }) hi hexec

/-! ## The worker's operations -/

theorem execDetect_sameSession_or_detected {s t : State} (h : execDetect s = .next t) : SameSession s t ∨ Detected s t := by
  obtain ⟨-, rfl⟩ | ⟨rest, -, rfl⟩ | ⟨bs, rest, -, -, rfl⟩ | ⟨bs, rest, m, -, -, rfl⟩ := execDetect_next_cases h
  · exact .inl (sameSession_refl _)
  · exact .inl ⟨rfl, rfl, rfl⟩
  · exact .inl ⟨rfl, rfl, rfl⟩
  · exact .inr ⟨rfl, rfl, rfl⟩

theorem execRead_sameSession {s t : State} (h : execRead s = .next t) : SameSession s t := by
  obtain ⟨-, rfl⟩ | ⟨rest, -, rfl⟩ | ⟨bs, rest, -, rfl⟩ := execRead_next_cases h <;> exact ⟨rfl, rfl, rfl⟩

theorem execDecode_sameSession {s t : State} (h : execDecode s = .next t) : SameSession s t := by
  obtain ⟨raw, -, ⟨cs, -, rfl⟩ | ⟨-, rfl⟩⟩ := execDecode_next_cases h <;> exact ⟨rfl, rfl, rfl⟩

theorem execDiff_sameSession {s t : State} (h : execDiff s = .next t) : SameSession s t := by
  cases h; exact ⟨rfl, rfl, rfl⟩

theorem execEncode_sameSession {s t : State} (h : execEncode s = .next t) : SameSession s t := by
  obtain ⟨crc, -, rfl⟩ | ⟨-, -, rfl⟩ := execEncode_next_cases h
  · exact ⟨rfl, rfl, rfl⟩
  · exact ⟨encodeFields_cfg s, encodeFields_mode s, encodeFields_modev s⟩

theorem execCrc32_sameSession {s t : State} (h : execCrc32 s = .next t) : SameSession s t := by
  obtain ⟨B, -, rfl⟩ := execCrc32_next h
  exact ⟨rfl, rfl, rfl⟩

theorem execWrite_sameSession {s t : State} (h : execWrite s = .next t) : SameSession s t := by
  obtain ⟨-, rfl⟩ | ⟨report, rest, -, ⟨-, rfl⟩ | ⟨-, rfl⟩⟩ := execWrite_next_cases h <;> exact ⟨rfl, rfl, rfl⟩

theorem execClose_sameSession {s t : State} (h : execClose s = .next t) : SameSession s t := by
  cases h; exact ⟨rfl, rfl, rfl⟩

/-- Only DETECT, before the loop, does not keep MODE and MODEV. -/
theorem workerTurn_sameSession_or_detected {s t : State} (h : workerTurn s = .next t) :
    SameSession s t ∨ (s.run = .stoppedInit ∧ s.phase = .detect ∧ Detected s t) := by
  obtain rfl | ⟨-, -, rfl⟩ | ⟨hrun, hphase, h⟩ | ⟨-, -, h⟩ | ⟨-, -, h⟩ | ⟨-, -, h⟩ | ⟨-, -, -, h⟩ | ⟨-, -, -, -, h⟩
    | ⟨-, -, h⟩ | ⟨-, -, h⟩ := workerTurn_next_cases h
  · exact .inl (sameSession_refl _)
  · exact .inl ⟨rfl, rfl, rfl⟩
  · exact (execDetect_sameSession_or_detected h).imp_right fun hdet => ⟨hrun, hphase, hdet⟩
  · exact .inl (execRead_sameSession h)
  · exact .inl (execDecode_sameSession h)
  · exact .inl (execDiff_sameSession h)
  · exact .inl (execEncode_sameSession h)
  · exact .inl (execCrc32_sameSession h)
  · exact .inl (execWrite_sameSession h)
  · exact .inl (execClose_sameSession h)

/-! ## One step -/

theorem takeTurn_sameSession_or_detected {k : Turn} {s t : State} (h : takeTurn k s = .next t) :
    SameSession s t ∨ (s.run = .stoppedInit ∧ s.phase = .detect ∧ Detected s t) := by
  cases k with
  | caller => exact .inl (callerTurn_sameSession h)
  | worker => exact workerTurn_sameSession_or_detected h
  | sample f => cases h; exact .inl ⟨sample_cfg s f, sample_mode s f, sample_modev s f⟩

theorem step_sameSession_or_detected {s t : State} (h : step s = .next t) :
    SameSession s t ∨ (s.run = .stoppedInit ∧ s.phase = .detect ∧ Detected s t) := by
  obtain ⟨-, rfl⟩ | ⟨k, rest, -, hturn⟩ := step_next_cases h
  · exact .inl (sameSession_refl _)
  · exact takeTurn_sameSession_or_detected (s := { s with turns := rest }) hturn

/-! ## The obligation -/

/-- Settles O50: a step keeps the parameters, MODE and MODEV, or it is a DETECT that completes before the loop. -/
theorem modeAndParametersAreFixedForTheSession : Obligations.ModeAndParametersAreFixedForTheSession := by
  intro s t h
  obtain ⟨hcfg, hmode, hmodev⟩ | ⟨hrun, hphase, hcfg, hrunning, hvalid⟩ := step_sameSession_or_detected h
  · refine ⟨hcfg, fun hchanged => ?_⟩
    cases hchanged with
    | inl hne => exact absurd hmode hne
    | inr hne => exact absurd hmodev hne
  · exact ⟨hcfg, fun _ => ⟨hrun, hphase, hrunning, hvalid⟩⟩

end Sys2Proof.Machine

end

section
/-! SUPPORT. What one turn of each agent can make of a state, one constructor per outcome with the guards that lead to it,
and the one shape in which a property is shown to be kept by every step. -/

namespace Sys2Proof.Machine

/-! ## The caller -/

/-- The free command port presents a word that selects `i`; `rest` are the words after it (spec/60_exceptions.md R311). -/
def Presented (s : State) (i : Instr) (rest : List Word) : Prop :=
  s.held = none ∧ ∃ w, s.cmds = w :: rest ∧ decodeCommand w = .ok i

/-- STOP is presented, or holds the port and looks again; `rest` are then the words left (log entry 11). -/
def StopTakenUp (s : State) (rest : List Word) : Prop :=
  Presented s .stop rest ∨ (s.held = some .stop ∧ s.cmds = rest)

/-- All a turn of the caller can make of a state. -/
inductive CallerEffect (s : State) : State → Prop
  | wait : CallerEffect s s
  | illegalWord {w rest e} (hfree : s.held = none) (hcmds : s.cmds = w :: rest) (hword : decodeCommand w = .error e) :
      CallerEffect s { s with cmds := rest, resps := .error .illegalCommand :: s.resps }
  | startRefused {rest} (hport : Presented s .start rest) (hrun : s.run ≠ .stoppedInit) :
      CallerEffect s (({ s with cmds := rest } : State).takeError .illegalCommand .command)
  | startIssued {rest} (hport : Presented s .start rest) (hrun : s.run = .stoppedInit) (hdev : s.devOk = true) :
      CallerEffect s { s with cmds := rest, phase := .detect, held := some .start }
  | startUnavailable {rest} (hport : Presented s .start rest) (hrun : s.run = .stoppedInit) (hdev : s.devOk = false) :
      CallerEffect s (({ s with cmds := rest, run := .stoppedFinal } : State).takeError .deviceUnavailable .command)
  | stopRefused {rest} (hport : StopTakenUp s rest) (hrun : s.run = .stoppedInit) :
      CallerEffect s (({ s with cmds := rest } : State).takeError .illegalCommand .command)
  | stopRequested {rest} (hport : StopTakenUp s rest) (hrun : s.run = .running) :
      CallerEffect s { s with cmds := rest, stopreq := true, held := some .stop }
  | stopReportsFailure {rest} (hport : StopTakenUp s rest) (hrun : s.run = .stoppedFinal)
      (herr : transportFailed s.err = true) :
      CallerEffect s (({ s with cmds := rest } : State).release.takeError .transportIO .command)
  | stopReportsOk {rest} (hport : StopTakenUp s rest) (hrun : s.run = .stoppedFinal)
      (herr : transportFailed s.err = false) :
      CallerEffect s (({ s with cmds := rest } : State).release.respond .ok)
  | setter {i rest t} (hport : Presented s i rest) (hset : isSetter i = true)
      (hexec : exec i { s with cmds := rest } = .next t) : CallerEffect s t

/-- A setter writes nothing but PO and the response. -/
theorem exec_setter_writes {i : Instr} {s t : State} (hset : isSetter i = true) (h : exec i s = .next t) :
    ∃ po resps, t = { s with po := po, resps := resps } := by
  obtain ⟨b, g, hexec⟩ := exec_of_isSetter hset
  rw [hexec] at h
  cases h
  obtain ⟨-, hset⟩ | ⟨-, hset⟩ := setter_cases s b g <;> exact ⟨_, _, hset⟩

theorem execStart_effect {s t : State} {rest : List Word} (hport : Presented s .start rest)
    (h : execStart { s with cmds := rest } = .next t) : CallerEffect s t := by
  obtain ⟨hrun, rfl⟩ | ⟨hrun, hdev, rfl⟩ | ⟨hrun, hdev, rfl⟩ := execStart_next_cases h
  · exact .startRefused hport hrun
  · exact .startIssued hport hrun hdev
  · exact .startUnavailable hport hrun hdev

theorem execStop_effect {s t : State} {rest : List Word} (hport : StopTakenUp s rest)
    (h : execStop { s with cmds := rest } = .next t) : CallerEffect s t := by
  obtain ⟨hrun, rfl⟩ | ⟨hrun, rfl⟩ | ⟨hrun, herr, rfl⟩ | ⟨hrun, herr, rfl⟩ := execStop_next_cases h
  · exact .stopRefused hport hrun
  · exact .stopRequested hport hrun
  · exact .stopReportsFailure hport hrun herr
  · exact .stopReportsOk hport hrun herr

theorem callerTurn_effect {s t : State} (h : callerTurn s = .next t) : CallerEffect s t := by
  obtain rfl | ⟨hheld, h⟩ | ⟨w, rest, hfree, hcmds, ⟨e, hword, rfl⟩ | ⟨i, hword, hcommand, h⟩⟩ := callerTurn_next_cases h
  · exact .wait
  · exact execStop_effect (.inr ⟨hheld, rfl⟩) h
  · exact .illegalWord hfree hcmds hword
  · have hport : Presented s i rest := ⟨hfree, w, hcmds, hword⟩
    obtain rfl | rfl | hset := isCommand_cases hcommand
    · exact execStart_effect hport h
    · exact execStop_effect (.inl hport) h
    · exact .setter hport hset h

/-! ## The worker -/

/-- All a turn of the worker can make of a state. -/
inductive WorkerEffect (s : State) : State → Prop
  | wait : WorkerEffect s s
  | boundary (hrun : s.run = .running) (hphase : s.phase = .idle) : WorkerEffect s s.cycleBoundary
  | detectIoFails {rest} (hrun : s.run = .stoppedInit) (hphase : s.phase = .detect) (hrx : s.rxQ = .failed :: rest) :
      WorkerEffect s ((s.tookRead s.cfg.detectReadLen rest).detectFails .transportIO)
  | detectFindsNoMode {bs rest} (hrun : s.run = .stoppedInit) (hphase : s.phase = .detect)
      (hrx : s.rxQ = .bytes bs :: rest) (hlen : modeOfLength (bs.take s.cfg.detectReadLen).length = none) :
      WorkerEffect s ((s.tookRead s.cfg.detectReadLen rest).detectFails .malformedReport)
  | detected {bs rest m} (hrun : s.run = .stoppedInit) (hphase : s.phase = .detect) (hrx : s.rxQ = .bytes bs :: rest)
      (hlen : modeOfLength (bs.take s.cfg.detectReadLen).length = some m) :
      WorkerEffect s (({ s.tookRead s.cfg.detectReadLen rest with
        mode := m, modev := true, run := .running, phase := .idle } : State).release.respond .ok)
  | readFails {rest} (hrun : s.run = .running) (hphase : s.phase = .read) (hrx : s.rxQ = .failed :: rest) :
      WorkerEffect s ((s.tookRead (inLen s.mode) rest).takeError .transportIO (.loop .close))
  | readStores {bs rest} (hrun : s.run = .running) (hphase : s.phase = .read) (hrx : s.rxQ = .bytes bs :: rest) :
      WorkerEffect s { s.tookRead (inLen s.mode) rest with
        inbuf := Memory.writeBytes s.inbuf 0 (bs.take (inLen s.mode))
        inlen := (bs.take (inLen s.mode)).length
        phase := .decode }
  | decoded {raw cs} (hrun : s.run = .running) (hphase : s.phase = .decode)
      (hraw : Memory.readRange s.inbuf 0 s.inlen = .ok raw) (hcs : decodeReport s.cfg s.mode raw = some cs) :
      WorkerEffect s { s with cs := cs, phase := .diff }
  | malformed {raw} (hrun : s.run = .running) (hphase : s.phase = .decode)
      (hraw : Memory.readRange s.inbuf 0 s.inlen = .ok raw) (hcs : decodeReport s.cfg s.mode raw = none) :
      WorkerEffect s (s.takeError .malformedReport (.loop (malformedNext s.cfg.malformedPolicy)))
  | compared (hrun : s.run = .running) (hphase : s.phase = .diff) :
      WorkerEffect s { s with
        ev := if s.prevv then evOf s.prev s.cs else 0#25, prev := s.cs, prevv := true, phase := .encode }
  | fieldsEncoded (hrun : s.run = .running) (hphase : s.phase = .encode) (hstage : ¬(s.enc = .crcCalled ∧ s.mode = .bt))
      (henc : s.enc = .start ∨ s.enc = .crcCalled)
      (hinside : offsetOutside (outLen s.mode) (assignedBytes s.cfg s.mode s.snapshot) = none) :
      WorkerEffect s s.encodeFields
  | tailEncoded {crc} (hrun : s.run = .running) (hphase : s.phase = .encode) (henc : s.enc = .crcReturned crc) :
      WorkerEffect s { s with
        outbuf := Memory.writeBytes s.outbuf crcTail (littleEndian4 crc), enc := .start, phase := .write }
  | checksummed {B} (hrun : s.run = .running) (hphase : s.phase = .encode) (henc : s.enc = .crcCalled)
      (hmode : s.mode = .bt) (hB : Memory.readRange s.outbuf 0 s.cfg.crc.cover = .ok B) :
      WorkerEffect s { s with enc := .crcReturned (crc32 s.cfg.crc B) }
  | writeFails {report rest} (hrun : s.run = .running) (hphase : s.phase = .write)
      (hreport : Memory.readRange s.outbuf 0 (outLen s.mode) = .ok report) (htx : s.txQ = .failed :: rest) :
      WorkerEffect s ((s.tookWrite report rest).takeError .transportIO (.loop .close))
  | written {report rest} (hrun : s.run = .running) (hphase : s.phase = .write)
      (hreport : Memory.readRange s.outbuf 0 (outLen s.mode) = .ok report) (htx : s.txQ = .done :: rest) :
      WorkerEffect s { s.tookWrite report rest with phase := .idle }
  | closed (hrun : s.run = .running) (hphase : s.phase = .close) : WorkerEffect s s.closeSession

section
variable {s t : State}

theorem execDetect_effect (hrun : s.run = .stoppedInit) (hphase : s.phase = .detect) (h : execDetect s = .next t) :
    WorkerEffect s t := by
  obtain ⟨-, rfl⟩ | ⟨rest, hrx, rfl⟩ | ⟨bs, rest, hrx, hlen, rfl⟩ | ⟨bs, rest, m, hrx, hlen, rfl⟩ :=
    execDetect_next_cases h
  · exact .wait
  · exact .detectIoFails hrun hphase hrx
  · exact .detectFindsNoMode hrun hphase hrx hlen
  · exact .detected hrun hphase hrx hlen

theorem execRead_effect (hrun : s.run = .running) (hphase : s.phase = .read) (h : execRead s = .next t) :
    WorkerEffect s t := by
  obtain ⟨-, rfl⟩ | ⟨rest, hrx, rfl⟩ | ⟨bs, rest, hrx, rfl⟩ := execRead_next_cases h
  · exact .wait
  · exact .readFails hrun hphase hrx
  · exact .readStores hrun hphase hrx

theorem execDecode_effect (hrun : s.run = .running) (hphase : s.phase = .decode) (h : execDecode s = .next t) :
    WorkerEffect s t := by
  obtain ⟨raw, hraw, ⟨cs, hcs, rfl⟩ | ⟨hcs, rfl⟩⟩ := execDecode_next_cases h
  · exact .decoded hrun hphase hraw hcs
  · exact .malformed hrun hphase hraw hcs

theorem execEncode_effect (hrun : s.run = .running) (hphase : s.phase = .encode)
    (hstage : ¬(s.enc = .crcCalled ∧ s.mode = .bt)) (h : execEncode s = .next t) : WorkerEffect s t := by
  obtain ⟨crc, henc, rfl⟩ | ⟨henc, hinside, rfl⟩ := execEncode_next_cases h
  · exact .tailEncoded hrun hphase henc
  · exact .fieldsEncoded hrun hphase hstage henc hinside

theorem execWrite_effect (hrun : s.run = .running) (hphase : s.phase = .write) (h : execWrite s = .next t) :
    WorkerEffect s t := by
  obtain ⟨-, rfl⟩ | ⟨report, rest, hreport, ⟨htx, rfl⟩ | ⟨htx, rfl⟩⟩ := execWrite_next_cases h
  · exact .wait
  · exact .writeFails hrun hphase hreport htx
  · exact .written hrun hphase hreport htx

theorem workerTurn_effect (h : workerTurn s = .next t) : WorkerEffect s t := by
  obtain rfl | ⟨hrun, hphase, rfl⟩ | ⟨hrun, hphase, h⟩ | ⟨hrun, hphase, h⟩ | ⟨hrun, hphase, h⟩ | ⟨hrun, hphase, h⟩
    | ⟨hrun, hphase, hstage, h⟩ | ⟨hrun, hphase, henc, hmode, h⟩ | ⟨hrun, hphase, h⟩ | ⟨hrun, hphase, h⟩ :=
    workerTurn_next_cases h
  · exact .wait
  · exact .boundary hrun hphase
  · exact execDetect_effect hrun hphase h
  · exact execRead_effect hrun hphase h
  · exact execDecode_effect hrun hphase h
  · cases h; exact .compared hrun hphase
  · exact execEncode_effect hrun hphase hstage h
  · obtain ⟨B, hB, rfl⟩ := execCrc32_next h
    exact .checksummed hrun hphase henc hmode hB
  · exact execWrite_effect hrun hphase h
  · cases h; exact .closed hrun hphase

end

/-! ## One step -/

/-- A property that no agent's turn breaks, and that does not look at `turns`, is kept by every step. -/
theorem step_keeps {P : State → Prop} (hturns : ∀ s rest, P s → P { s with turns := rest })
    (hcaller : ∀ s t, CallerEffect s t → P s → P t) (hworker : ∀ s t, WorkerEffect s t → P s → P t)
    (hsample : ∀ s f, P s → P (s.sample f)) {s t : State} (hs : P s) (h : step s = .next t) : P t := by
  obtain ⟨-, rfl⟩ | ⟨k, rest, -, hturn⟩ := step_next_cases h
  · exact hs
  · have hrest := hturns s rest hs
    cases k with
    | caller => exact hcaller _ _ (callerTurn_effect hturn) hrest
    | worker => exact hworker _ _ (workerTurn_effect hturn) hrest
    | sample f => cases hturn; exact hsample _ f hrest

end Sys2Proof.Machine
end

section
/-! PROOFS. The error register is sticky (spec/10_state.md R45) and the buffers stay canonical (R48, R49). -/

namespace Sys2Proof.Machine

/-! ## ERR -/

/-- Bit `i` of `ERR` is set. -/
def ErrBit (i : Nat) (s : State) : Prop := s.err.getLsbD i = true

/-- Taking an error only adds bits: the sticky bits are combined by OR. -/
theorem takeError_errBit {i : Nat} {s : State} (h : ErrBit i s) (e : ErrClass) (site : ErrorSite) :
    ErrBit i (s.takeError e site) := by
  have hor : (s.err ||| stickyBit e).getLsbD i = true := by
    rw [BitVec.getLsbD_or, show s.err.getLsbD i = true from h, Bool.true_or]
  cases site with
  | command => exact hor
  | loop next => exact hor

theorem callerEffect_errBit {i : Nat} {s t : State} (h : CallerEffect s t) (hs : ErrBit i s) : ErrBit i t := by
  cases h with
  | startRefused | startUnavailable | stopRefused | stopReportsFailure => apply takeError_errBit; exact hs
  | setter _ hset hexec => obtain ⟨po, resps, rfl⟩ := exec_setter_writes hset hexec; exact hs
  | _ => exact hs

theorem workerEffect_errBit {i : Nat} {s t : State} (h : WorkerEffect s t) (hs : ErrBit i s) : ErrBit i t := by
  cases h with
  | detectIoFails | detectFindsNoMode | readFails | malformed | writeFails => apply takeError_errBit; exact hs
  | fieldsEncoded => simpa [ErrBit] using hs
  | _ => exact hs

/-- Settles O49: an operation leaves `ERR` alone or takes an error, which only sets bits. -/
theorem errBitsAreNeverCleared : Obligations.ErrBitsAreNeverCleared := by
  intro s t i h hs
  exact step_keeps (P := ErrBit i) (fun _ _ hs => hs) (fun _ _ => callerEffect_errBit) (fun _ _ => workerEffect_errBit)
    (fun s f hs => by simpa [ErrBit] using hs) hs h

/-! ## The buffers -/

/-- Both buffers are in canonical form. -/
def BuffersWf (s : State) : Prop := Memory.wf s.inbuf = true ∧ Memory.wf s.outbuf = true

theorem inLen_le_bufferSize (m : ConnMode) : inLen m ≤ bufferSize := by cases m <;> decide

theorem outLen_le_bufferSize (m : ConnMode) : outLen m ≤ bufferSize := by cases m <;> decide

theorem callerEffect_buffersWf {s t : State} (h : CallerEffect s t) (hs : BuffersWf s) : BuffersWf t := by
  cases h with
  | setter _ hset hexec => obtain ⟨po, resps, rfl⟩ := exec_setter_writes hset hexec; exact hs
  | _ => exact hs

/-- READ stores at most 78 bytes; ENCODE writes a report of at most 78 bytes, and its tail in the last four. -/
theorem workerEffect_buffersWf {s t : State} (h : WorkerEffect s t) (hs : BuffersWf s) : BuffersWf t := by
  obtain ⟨hin, hout⟩ := hs
  cases h with
  | @readStores bs =>
    have hlen := (List.length_take_le (inLen s.mode) bs).trans (inLen_le_bufferSize s.mode)
    exact ⟨wf_writeBytes 0 _ hin (by simpa using hlen), hout⟩
  | fieldsEncoded =>
    refine ⟨by simpa using hin, ?_⟩
    rw [encodeFields_outbuf]
    exact wf_writeBytes 0 _ hout (by simpa using outLen_le_bufferSize s.mode)
  | tailEncoded => exact ⟨hin, wf_writeBytes crcTail _ hout (by simp [crcTail, bufferSize])⟩
  | _ => exact ⟨hin, hout⟩

/-- Settles O56: every write lands inside the 78 bytes. -/
theorem stepKeepsBuffersCanonical : Obligations.StepKeepsBuffersCanonical := by
  intro s t hin hout h
  exact step_keeps (P := BuffersWf) (fun _ _ hs => hs) (fun _ _ => callerEffect_buffersWf)
    (fun _ _ => workerEffect_buffersWf) (fun s f hs => by simpa [BuffersWf] using hs) ⟨hin, hout⟩ h

end Sys2Proof.Machine
end

section
/-! PROOFS. The ranges of PO and of CS (spec/10_state.md R22, R25, R29, R35), at reset and at every step. -/

namespace Sys2Proof.Machine

/-! ## PO: the mode bytes of the triggers -/

theorem poOk_zero : poOk PendingOutput.zero := ⟨List.mem_cons_self, List.mem_cons_self⟩

/-- The mode check of SETMODE lets the ten mode bytes pass and nothing else (spec/43_setters.md R213). -/
theorem byteOf_mem_legalModes {m : Int} (h : isModeByte m = true) : byteOf m ∈ legalModes := by
  simp only [isModeByte, List.any_eq_true, decide_eq_true_eq] at h
  obtain ⟨b, hb, rfl⟩ := h
  have hbyte : byteOf (b.toNat : Int) = b := by simp [byteOf]
  rwa [hbyte]

theorem poOk_trig {po : PendingOutput} (h : poOk po) (t : Side) : (po.trig t).mode ∈ legalModes := by
  cases t with
  | left => exact h.1
  | right => exact h.2

theorem poOk_setTrig {po : PendingOutput} {e : TriggerEffect} (h : poOk po) (t : Side) (he : e.mode ∈ legalModes) :
    poOk (po.setTrig t e) := by
  cases t with
  | left => exact ⟨he, h.2⟩
  | right => exact ⟨h.1, he⟩

theorem poOk_setMotor {po : PendingOutput} (h : poOk po) (m : Side) (b : Byte) : poOk (po.setMotor m b) := by
  cases m <;> exact h

theorem poOk_setForce {po : PendingOutput} (h : poOk po) (t : Side) (k : Nat) (b : Byte) : poOk (po.setForce t k b) :=
  poOk_setTrig h t (poOk_trig h t)

theorem poOk_copy {src po : PendingOutput} (f : PoField) (hsrc : poOk src) (h : poOk po) : poOk (f.copy src po) := by
  cases f with
  | trigMode t => exact poOk_setTrig h t (poOk_trig hsrc t)
  | trigForce t k => exact poOk_setForce h t _ _
  | _ => exact h

/-- What ENCODE sees is PO with some fields taken from the latch. -/
theorem poOk_snapshot {s : State} (hpo : poOk s.po) (hlatch : poOk s.latch) : poOk s.snapshot :=
  List.foldlRecOn s.latched _ hpo fun _ h f _ => poOk_copy f hlatch h

theorem poOk_setter {s : State} {b : Bool} {g : PendingOutput → PendingOutput} (hs : poOk s.po)
    (hg : b = true → poOk (g s.po)) : poOk (s.setter b g).po := by
  obtain ⟨hb, heq⟩ | ⟨-, heq⟩ := setter_cases s b g <;> rw [heq]
  · exact hg hb
  · exact hs

/-- SETMODE is the one setter that writes a mode byte. -/
theorem exec_setter_poOk {i : Instr} {s t : State} (hset : isSetter i = true) (h : exec i s = .next t)
    (hs : poOk s.po) : poOk t.po := by
  cases i with
  | start | stop | detect | read | decode | diff | encode | write | close | crc32 => cases hset
  | setmode t m => cases h; exact poOk_setter hs fun hm => poOk_setTrig hs t (byteOf_mem_legalModes hm)
  | setmotor m v => cases h; exact poOk_setter hs fun _ => poOk_setMotor hs m _
  | setforce t k v => cases h; exact poOk_setter hs fun _ => poOk_setForce hs t _ _
  | setled | setpulse | setbright | setplayer | setrgb | setmicled | setmicmute =>
    cases h; exact poOk_setter hs fun _ => hs

/-- PO and the latch keep to the ten mode bytes. -/
def OutputsOk (s : State) : Prop := poOk s.po ∧ poOk s.latch

theorem callerEffect_outputsOk {s t : State} (h : CallerEffect s t) (hs : OutputsOk s) : OutputsOk t := by
  cases h with
  | setter _ hset hexec =>
    refine ⟨exec_setter_poOk hset hexec hs.1, ?_⟩
    obtain ⟨po, resps, rfl⟩ := exec_setter_writes hset hexec
    exact hs.2
  | _ => exact hs

theorem workerEffect_outputsOk {s t : State} (h : WorkerEffect s t) (hs : OutputsOk s) : OutputsOk t := by
  cases h with
  | fieldsEncoded => exact ⟨by simpa using hs.1, by simpa using poOk_zero⟩
  | _ => exact hs

theorem sample_outputsOk {s : State} (f : PoField) (hs : OutputsOk s) : OutputsOk (s.sample f) := by
  unfold State.sample
  split
  · exact ⟨hs.1, poOk_copy f hs.1 hs.2⟩
  · exact hs

/-! ## CS: what a decode can give -/

theorem csOk_zero : csOk ControllerState.zero := by unfold csOk; decide

theorem csOk_reset : csOk ControllerState.reset := by unfold csOk; decide

/-- The bias takes 128 off the byte's value. -/
theorem biasedByte_toInt (b : Byte) : (biasedByte b).toInt = (b.toNat : Int) - 128 := by
  have hb := b.isLt
  rw [BitVec.toInt_eq_toNat_cond]
  simp only [biasedByte, BitVec.toNat_sub, BitVec.toNat_setWidth, BitVec.toNat_ofNat]
  split <;> omega

/-- A stick is −128 to 127 after a decode: 128, the value at reset, is out of a byte's reach. -/
theorem biasedByte_range (b : Byte) : -128 ≤ (biasedByte b).toInt ∧ (biasedByte b).toInt ≤ 127 := by
  have hb := b.isLt
  rw [biasedByte_toInt]
  omega

theorem batteryOf_level (b : Byte) : (batteryOf b).level.toNat ≤ 100 := by
  rw [batteryOf, BitVec.toNat_ofNat]
  exact (Nat.mod_le _ _).trans (Nat.min_le_right _ _)

/-- No D-pad code stands for two opposite directions (spec/40_decoder.md R137). -/
theorem dpad_not_opposite (c : Nat) :
    ¬([0, 1, 7].contains c = true ∧ [3, 4, 5].contains c = true)
    ∧ ¬([5, 6, 7].contains c = true ∧ [1, 2, 3].contains c = true) := by
  simp only [List.contains_cons, List.contains_nil, Bool.or_eq_true, beq_iff_eq, Bool.false_eq_true, or_false]
  omega

/-- Every decode gives values in range (spec/10_state.md R22, R25, R29). -/
theorem csOk_fieldsOf (P : List Byte) : csOk (fieldsOf P) := by
  have hstick : ∀ i, -128 ≤ (biasedByte (byteAt P i)).toInt ∧ (biasedByte (byteAt P i)).toInt ≤ 128 := fun i =>
    (biasedByte_range (byteAt P i)).imp_right fun h => by omega
  obtain ⟨hupDown, hleftRight⟩ := dpad_not_opposite (dpadCode (byteAt P 8))
  refine ⟨hstick 1, hstick 2, hstick 3, hstick 4, hupDown, hleftRight, ?_⟩
  by_cases hbat : batteryOffset < P.length
  · simp only [fieldsOf, if_pos hbat]
    exact ⟨batteryOf_level _, nofun⟩
  · simp only [fieldsOf, if_neg hbat]
    exact ⟨Nat.zero_le _, fun _ => ⟨rfl, rfl⟩⟩

theorem decodeReport_eq_some {cfg : Config} {mode : ConnMode} {raw : List Byte} {cs : ControllerState}
    (h : decodeReport cfg mode raw = some cs) : cs = fieldsOf (payload mode raw) := by
  unfold decodeReport at h
  split at h
  · cases h; rfl
  · cases h

/-- CS and the baseline of DIFF keep to their ranges. -/
def InputsOk (s : State) : Prop := csOk s.cs ∧ csOk s.prev

theorem callerEffect_inputsOk {s t : State} (h : CallerEffect s t) (hs : InputsOk s) : InputsOk t := by
  cases h with
  | setter _ hset hexec => obtain ⟨po, resps, rfl⟩ := exec_setter_writes hset hexec; exact hs
  | _ => exact hs

/-- CS changes by a decode only, and PREV becomes a CS. -/
theorem workerEffect_inputsOk {s t : State} (h : WorkerEffect s t) (hs : InputsOk s) : InputsOk t := by
  cases h with
  | decoded _ _ _ hcs => exact ⟨decodeReport_eq_some hcs ▸ csOk_fieldsOf _, hs.2⟩
  | compared => exact ⟨hs.1, hs.1⟩
  | fieldsEncoded => simpa [InputsOk] using hs
  | _ => exact hs

/-! ## The obligations -/

/-- Settles O57: SETMODE checks its operand, fields are copied whole, and a decode gives values in range. -/
theorem stepKeepsRegisterRanges : Obligations.StepKeepsRegisterRanges := by
  refine ⟨fun s hpo hlatch => ⟨poOk_snapshot hpo hlatch, fun t h => ?_⟩, fun s t hcs hprev h => ?_⟩
  · exact step_keeps (P := OutputsOk) (fun _ _ hs => hs) (fun _ _ => callerEffect_outputsOk)
      (fun _ _ => workerEffect_outputsOk) (fun _ f => sample_outputsOk f) ⟨hpo, hlatch⟩ h
  · exact step_keeps (P := InputsOk) (fun _ _ hs => hs) (fun _ _ => callerEffect_inputsOk)
      (fun _ _ => workerEffect_inputsOk) (fun s f hs => by simpa [InputsOk] using hs) ⟨hcs, hprev⟩ h

/-- Settles O1: a decoded stick is at most 127. -/
theorem resetControllerStateValues : Obligations.ResetControllerStateValues := by
  refine ⟨by decide, by decide, rfl, rfl, rfl, rfl, rfl, rfl, rfl, fun cfg mode raw cs h => ?_⟩
  have hne : ∀ i, (biasedByte (byteAt (payload mode raw) i)).toInt ≠ 128 := fun i hi => by
    have := biasedByte_range (byteAt (payload mode raw) i)
    omega
  rw [decodeReport_eq_some h]
  exact ⟨hne 1, hne 2, hne 3, hne 4⟩

/-- Settles O2: the fields of `State.resetWith` as they are written. -/
theorem resetRegistersAndBuffers : Obligations.ResetRegistersAndBuffers :=
  ⟨fun _ _ => ⟨rfl, rfl, rfl, rfl, rfl, rfl, rfl, rfl, rfl, rfl, rfl, fun _ => rfl, fun _ => rfl⟩, rfl⟩

theorem defaultConfig_ok : configOk defaultConfig = true := by decide

theorem reset_buffersOk : BuffersOk State.reset where
  inbufWf := reset_buffers_wf.1
  outbufWf := reset_buffers_wf.2
  inlenBound := Nat.zero_le _
  reportStored := fun _ ha => absurd ha (Nat.not_lt_zero _)

/-- Before START nothing has been issued: no command holds the port, no flag is set, no ENCODE is in progress. -/
theorem reset_sequencerOk : SequencerOk State.reset where
  initPhase := fun _ => .inl rfl
  initFlags := fun _ => ⟨rfl, rfl, rfl, rfl⟩
  detectForStart := ⟨nofun, nofun⟩
  detectOnlyInit := nofun
  runningMode := nofun
  runningErr := nofun
  finalPhase := nofun
  stopWaits := nofun
  encStage := fun h => absurd rfl h
  writeReady := nofun
  latchedInEncode := fun h => absurd rfl h
  latchedOnce := List.nodup_nil
  closedOnce := rfl

/-- Settles O3, part by part. -/
theorem resetMeetsTheInvariant : Obligations.ResetMeetsTheInvariant where
  config := defaultConfig_ok
  cs := csOk_reset
  prev := csOk_zero
  po := poOk_zero
  latch := poOk_zero
  buffers := reset_buffersOk
  sequencer := reset_sequencerOk

end Sys2Proof.Machine
end

section
/-! PROOFS. Where the machine stops (spec/10_state.md R51, spec/20_memory.md R63, log entries 5 and 17), and that no session
gets there. -/

namespace Sys2Proof.Machine

/-! ## Reading a sub-buffer that is not all there -/

/-- A sub-buffer read stops at the first byte nothing has written. -/
theorem readRange_of_unwritten {m : Memory} {a : Nat} (hunwritten : Memory.read m a = none) :
    ∀ n lo, lo + n ≤ bufferSize → lo ≤ a → a < lo + n →
      ∃ k, k ≤ a ∧ Memory.readRange m lo n = .error (.unwrittenByte k) := by
  intro n
  induction n with
  | zero => intro lo _ hlo ha; omega
  | succ n ih =>
    intro lo hsize hlo ha
    have hinside : ¬bufferSize ≤ lo := by omega
    cases hread : Memory.read m lo with
    | none => exact ⟨lo, hlo, by simp [Memory.readRange, Memory.readByte, hinside, hread]⟩
    | some b =>
      have hne : lo ≠ a := fun h => by rw [h, hunwritten] at hread; cases hread
      obtain ⟨k, hk, hrest⟩ := ih (lo + 1) (by omega) (by omega) (by omega)
      exact ⟨k, hk, by simp [Memory.readRange, Memory.readByte, hinside, hread, hrest]⟩

/-- A read of a buffer that is all there and goes beyond it stops at offset 78. -/
theorem readRange_beyond_buffer {m : Memory} (hlisted : listedBelow m bufferSize) :
    ∀ n lo, lo ≤ bufferSize → bufferSize < lo + n →
      Memory.readRange m lo n = .error (.offsetOutsideBuffer bufferSize) := by
  intro n
  induction n with
  | zero => intro lo hlo hn; omega
  | succ n ih =>
    intro lo hlo hn
    obtain rfl | hlt := Nat.eq_or_lt_of_le hlo
    · simp [Memory.readRange, Memory.readByte]
    · obtain ⟨b, hread⟩ := Option.isSome_iff_exists.mp (hlisted lo hlt)
      have hinside : ¬bufferSize ≤ lo := by omega
      have hrest := ih (lo + 1) hlt (by omega)
      simp [Memory.readRange, Memory.readByte, hinside, hread, hrest]

/-! ## What a failed read makes of the operations that read buffers -/

theorem execDecode_fault {s : State} {f : Fault} (h : Memory.readRange s.inbuf 0 s.inlen = .error f) :
    execDecode s = .fault f := by
  simp [execDecode, h]

theorem execCrc32_fault {s : State} {f : Fault} (h : Memory.readRange s.outbuf 0 s.cfg.crc.cover = .error f) :
    execCrc32 s = .fault f := by
  simp [execCrc32, h]

theorem execWrite_fault {s : State} {f : Fault} {answer : TxAnswer} {rest : List TxAnswer}
    (htx : s.txQ = answer :: rest) (h : Memory.readRange s.outbuf 0 (outLen s.mode) = .error f) :
    execWrite s = .fault f := by
  simp [execWrite, htx, h]

/-- ENCODE stops when some assigned byte lies outside the report, at the first such byte. -/
theorem execEncode_fault {s : State} (henc : s.enc = .start) {p : Nat × Byte}
    (hp : p ∈ assignedBytes s.cfg s.mode s.snapshot) (hout : outLen s.mode ≤ p.1) :
    ∃ j, outLen s.mode ≤ j ∧ execEncode s = .fault (.offsetOutsideBuffer j) := by
  have hsome : ((assignedBytes s.cfg s.mode s.snapshot).find? fun q => decide (outLen s.mode ≤ q.1)).isSome = true :=
    List.find?_isSome.mpr ⟨p, hp, by simpa using hout⟩
  obtain ⟨q, hq⟩ := Option.isSome_iff_exists.mp hsome
  have hfirst : offsetOutside (outLen s.mode) (assignedBytes s.cfg s.mode s.snapshot) = some q.1 := by
    simp [offsetOutside, hq]
  exact ⟨q.1, by simpa using List.find?_some hq, by simp [execEncode, henc, hfirst]⟩

theorem outMapOffset_assigned {cfg : Config} {k : Nat} (hk : k ∈ outMapOffsets cfg.outMap) (mode : ConnMode)
    (po : PendingOutput) : ∃ p ∈ assignedBytes cfg mode po, p.1 = k + outShift mode := by
  have hmem : k + outShift mode ∈ (assignedBytes cfg mode po).map Prod.fst := by
    rw [assignedBytes_offsets]
    exact List.mem_append_right _ (List.mem_map_of_mem hk)
  simpa using hmem

/-- Settles O48, reader by reader. -/
theorem unwrittenBytesAndOutsideOffsetsStopTheReader : Obligations.UnwrittenBytesAndOutsideOffsetsStopTheReader := by
  refine ⟨?decode, ?write, ?crc32, ?beyond, ?encode⟩
  case decode =>
    intro s a hlen ha hunwritten
    obtain ⟨k, hk, hread⟩ := readRange_of_unwritten hunwritten s.inlen 0 (by simpa [bufferSize]) a.zero_le (by omega)
    exact ⟨k, hk, execDecode_fault hread⟩
  case write =>
    intro s a answer rest htx ha hunwritten
    obtain ⟨k, hk, hread⟩ := readRange_of_unwritten hunwritten (outLen s.mode) 0
      (by simpa using outLen_le_bufferSize s.mode) a.zero_le (by omega)
    exact ⟨k, hk, execWrite_fault htx hread⟩
  case crc32 =>
    intro s a hcover ha hunwritten
    obtain ⟨k, hk, hread⟩ := readRange_of_unwritten hunwritten s.cfg.crc.cover 0 (by simpa [bufferSize]) a.zero_le
      (by omega)
    exact ⟨k, hk, execCrc32_fault hread⟩
  case beyond =>
    intro s hcover hlisted
    exact execCrc32_fault (readRange_beyond_buffer hlisted _ 0 (Nat.zero_le _) (by simpa [bufferSize]))
  case encode =>
    intro s k henc hk hout
    obtain ⟨p, hp, hoffset⟩ := outMapOffset_assigned hk s.mode s.snapshot
    exact execEncode_fault henc hp (by omega)

/-! ## No session gets there -/

/-- The operation answers a next state. -/
def Answers (a : Answer) : Prop := ∃ t, a = .next t

theorem answers_next (t : State) : Answers (.next t) := ⟨t, rfl⟩

/-- The caller's operations read no buffer and never stop. -/
theorem execStart_answers (s : State) : Answers (execStart s) := by
  unfold execStart
  split
  · exact answers_next _
  · split <;> exact answers_next _

theorem execStop_answers (s : State) : Answers (execStop s) := by
  unfold execStop
  split
  · exact answers_next _
  · exact answers_next _
  · split <;> exact answers_next _

theorem exec_command_answers {i : Instr} (hi : isCommand i = true) (s : State) : Answers (exec i s) := by
  obtain rfl | rfl | hset := isCommand_cases hi
  · exact execStart_answers s
  · exact execStop_answers s
  · obtain ⟨b, g, hexec⟩ := exec_of_isSetter hset
    exact ⟨_, hexec s⟩

theorem callerTurn_answers (s : State) : Answers (callerTurn s) := by
  unfold callerTurn
  split
  · exact answers_next _
  · exact execStop_answers s
  · split
    · exact answers_next _
    · next w rest _ =>
      split
      · next i hi => exact exec_command_answers (decodeCommand_isCommand hi) _
      · exact answers_next _

theorem execDetect_answers (s : State) : Answers (execDetect s) := by
  unfold execDetect
  split
  · exact answers_next _
  · exact answers_next _
  · split <;> exact answers_next _

theorem execRead_answers (s : State) : Answers (execRead s) := by
  unfold execRead
  split <;> exact answers_next _

theorem execDecode_answers {s : State} (hlen : s.inlen ≤ bufferSize) (hstored : listedBelow s.inbuf s.inlen) :
    Answers (execDecode s) := by
  obtain ⟨raw, hraw⟩ := readRange_of_listed hstored hlen
  simp only [execDecode, hraw]
  split <;> exact answers_next _

theorem execEncode_answers {s : State} (hmap : outMapOk s.cfg.outMap = true) : Answers (execEncode s) := by
  have hinside := offsetOutside_none hmap s.mode s.snapshot
  unfold execEncode
  split
  · exact answers_next _
  · rw [hinside]; exact answers_next _
  · rw [hinside]; exact answers_next _

theorem execCrc32_answers {s : State} (hcover : s.cfg.crc.cover ≤ bufferSize) (hlisted : listedBelow s.outbuf bufferSize) :
    Answers (execCrc32 s) := by
  obtain ⟨B, hB⟩ := readRange_of_listed (listedBelow_mono hlisted hcover) hcover
  simp only [execCrc32, hB]
  exact answers_next _

theorem execWrite_answers {s : State} (hlisted : listedBelow s.outbuf (outLen s.mode)) : Answers (execWrite s) := by
  obtain ⟨report, hreport⟩ := readRange_of_listed hlisted (outLen_le_bufferSize s.mode)
  unfold execWrite
  split
  · exact answers_next _
  · rw [hreport]
    dsimp only
    split <;> exact answers_next _

/-! ## A turn of the worker in a session -/

theorem workerTurn_of_selector {s : State} {e : Encoded} (i : Instr) (hsel : s.selector = some e)
    (hdecode : decode e = .ok i) : workerTurn s = exec i s := by
  simp only [workerTurn, hsel, hdecode]

theorem workerTurn_answers_of_selector_none {s : State} (hsel : s.selector = none) : Answers (workerTurn s) := by
  simp only [workerTurn, hsel]
  split <;> exact answers_next _

/-- Inside the loop `PHASE` alone selects the operation, but for the boundary and ENCODE (spec/45_sequencer.md R263). -/
theorem workerTurn_of_running {s : State} {p : Phase} (i : Instr) (hrun : s.run = .running) (hphase : s.phase = p)
    (hidle : p ≠ .idle) (hdetect : p ≠ .detect) (hencode : p ≠ .encode) (hdecode : decode (.seq (phaseCode p)) = .ok i) :
    workerTurn s = exec i s := by
  refine workerTurn_of_selector i ?_ hdecode
  cases p with
  | idle => exact absurd rfl hidle
  | detect => exact absurd rfl hdetect
  | encode => exact absurd rfl hencode
  | read | decode | diff | write | close => simp [State.selector, hrun, hphase]

/-- Before the loop only DETECT is ever selected (spec/45_sequencer.md R261). -/
theorem workerTurn_answers_stoppedInit {s : State} (hrun : s.run = .stoppedInit) : Answers (workerTurn s) := by
  cases hphase : s.phase with
  | detect =>
    have hsel : s.selector = some (.seq (phaseCode .detect)) := by simp [State.selector, hrun, hphase]
    rw [workerTurn_of_selector .detect hsel rfl]
    exact execDetect_answers s
  | _ => exact workerTurn_answers_of_selector_none (by simp [State.selector, hrun, hphase])

/-- An ENCODE in progress is at CRC32 or at its own steps (spec/42_encoder.md R190). -/
theorem workerTurn_answers_encode {s : State} (hrun : s.run = .running) (hphase : s.phase = .encode)
    (hencode : Answers (execEncode s)) (hcrc : s.enc = .crcCalled → Answers (execCrc32 s)) : Answers (workerTurn s) := by
  by_cases hcalled : s.enc = .crcCalled ∧ s.mode = .bt
  · have hsel : s.selector = some (.sub (modeCode .bt ++ phaseCode .encode)) := by
      simp [State.selector, hrun, hphase, hcalled]
    rw [workerTurn_of_selector .crc32 hsel rfl]
    exact hcrc hcalled.1
  · have hsel : s.selector = some (.seq (phaseCode .encode)) := by simp only [State.selector, hrun, hphase, if_neg hcalled]
    rw [workerTurn_of_selector .encode hsel rfl]
    exact hencode

/-- The worker stops only where DECODE, ENCODE, CRC32 or WRITE does. -/
theorem workerTurn_answers {s : State} (hdecode : Answers (execDecode s)) (hencode : Answers (execEncode s))
    (hcrc : s.enc = .crcCalled → Answers (execCrc32 s)) (hwrite : s.phase = .write → Answers (execWrite s)) :
    Answers (workerTurn s) := by
  cases hrun : s.run with
  | stoppedInit => exact workerTurn_answers_stoppedInit hrun
  | stoppedFinal => exact workerTurn_answers_of_selector_none (by simp [State.selector, hrun])
  | running =>
    cases hphase : s.phase with
    | idle | detect => exact workerTurn_answers_of_selector_none (by simp [State.selector, hrun, hphase])
    | read => rw [workerTurn_of_running .read hrun hphase nofun nofun nofun rfl]; exact execRead_answers s
    | decode => rw [workerTurn_of_running .decode hrun hphase nofun nofun nofun rfl]; exact hdecode
    | diff => rw [workerTurn_of_running .diff hrun hphase nofun nofun nofun rfl]; exact answers_next _
    | encode => exact workerTurn_answers_encode hrun hphase hencode hcrc
    | write => rw [workerTurn_of_running .write hrun hphase nofun nofun nofun rfl]; exact hwrite hphase
    | close => rw [workerTurn_of_running .close hrun hphase nofun nofun nofun rfl]; exact answers_next _

theorem configOk_outMap {c : Config} (h : configOk c = true) : outMapOk c.outMap = true := by
  simp only [configOk, Bool.and_eq_true] at h
  obtain ⟨⟨⟨⟨⟨hmap, -⟩, -⟩, -⟩, -⟩, -⟩ := h
  exact hmap

theorem configOk_cover {c : Config} (h : configOk c = true) : c.crc.cover ≤ bufferSize := by
  simp only [configOk, Bool.and_eq_true, decide_eq_true_eq] at h
  obtain ⟨⟨⟨⟨-, hcover⟩, -⟩, -⟩, -⟩ := h
  exact hcover

/-- In a session whatever an operation of the worker reads has been written. -/
theorem inv_workerTurn_answers {s : State} (h : Inv s) : Answers (workerTurn s) :=
  workerTurn_answers (execDecode_answers h.buffers.inlenBound h.buffers.reportStored)
    (execEncode_answers (configOk_outMap h.config))
    (fun hcalled =>
      have ⟨_, _, _, hlisted⟩ := h.sequencer.encStage (by rw [hcalled]; nofun)
      execCrc32_answers (configOk_cover h.config) hlisted)
    (fun hphase => execWrite_answers (h.sequencer.writeReady hphase))

/-- The invariant does not look at whose turn it is. -/
theorem inv_turns {s : State} (h : Inv s) (rest : List Turn) : Inv { s with turns := rest } where
  config := h.config
  cs := h.cs
  prev := h.prev
  po := h.po
  latch := h.latch
  buffers := { h.buffers with }
  sequencer := { h.sequencer with }

theorem inv_takeTurn_answers {s : State} (h : Inv s) (k : Turn) : Answers (takeTurn k s) := by
  cases k with
  | caller => exact callerTurn_answers s
  | worker => exact inv_workerTurn_answers h
  | sample f => exact answers_next _

/-- Settles O59: the caller's turns never stop, and the worker reads only what has been written. -/
theorem sessionsNeverFault : Obligations.SessionsNeverFault := by
  intro s h
  rw [step_eq]
  split
  · exact answers_next _
  · next k rest _ => exact inv_takeTurn_answers (inv_turns h rest) k

end Sys2Proof.Machine
end

section
/-! PROOFS. The shared memory of the two agents: what ENCODE sees of PO (spec/20_memory.md R72, R73), and when a held STOP
answers (R77). -/

namespace Sys2Proof.Machine

/-! ## The fields of PO -/

/-- A trigger is its mode and its seven forces. -/
theorem trig_eq_of_copy_eq {a b : PendingOutput} (t : Side) (hmode : (PoField.trigMode t).copy a b = b)
    (hforce : ∀ k, (PoField.trigForce t k).copy a b = b) : a.trig t = b.trig t := by
  have hm : (a.trig t).mode = (b.trig t).mode := by
    simpa [PoField.copy, PendingOutput.setMode] using congrArg (fun po => (po.trig t).mode) hmode
  have hf : (a.trig t).force = (b.trig t).force := by
    ext k hk : 1
    simpa [PoField.copy, PendingOutput.setForce] using congrArg (fun po => (po.trig t).force[k]) (hforce ⟨k, hk⟩)
  calc a.trig t = ⟨(a.trig t).mode, (a.trig t).force⟩ := rfl
    _ = b.trig t := by rw [hm, hf]

/-- The fields together are all of PO. -/
theorem eq_of_copy_eq {a b : PendingOutput} (h : ∀ f : PoField, f.copy a b = b) : a = b := by
  have hleft : a.trigL = b.trigL := trig_eq_of_copy_eq .left (h _) fun _ => h _
  have hright : a.trigR = b.trigR := trig_eq_of_copy_eq .right (h _) fun _ => h _
  obtain ⟨⟩ := a
  obtain ⟨⟩ := b
  rw [PendingOutput.mk.injEq]
  exact ⟨congrArg PendingOutput.motorL (h .motorL), congrArg PendingOutput.motorR (h .motorR),
    congrArg PendingOutput.ledOption (h .ledOption), congrArg PendingOutput.pulseOption (h .pulseOption),
    congrArg PendingOutput.brightness (h .brightness), congrArg PendingOutput.player (h .player),
    congrArg PendingOutput.rgb (h .rgb), hleft, hright, congrArg PendingOutput.micLed (h .micLed),
    congrArg PendingOutput.micMute (h .micMute)⟩

/-! ## The reads of an ENCODE in progress -/

/-- An ENCODE has begun, has not written its fields, and reads them one by one (spec/20_memory.md R72). -/
def ReadsFields (s : State) : Prop :=
  s.run = .running ∧ s.phase = .encode ∧ s.enc = .start ∧ s.cfg.snapshotPolicy = .perField

/-- A moment `sample f` reads `f` into the latch, or comes too late, twice, or under SNAPSHOT whole and does nothing. -/
theorem sample_cases (s : State) (f : PoField) :
    (ReadsFields s ∧ f ∉ s.latched
      ∧ s.sample f = { s with latched := f :: s.latched, latch := f.copy s.po s.latch })
    ∨ (¬(ReadsFields s ∧ f ∉ s.latched) ∧ s.sample f = s) := by
  unfold State.sample
  split
  · next h =>
    obtain ⟨hrun, hphase, henc, hpolicy, hunread⟩ := h
    exact .inl ⟨⟨hrun, hphase, henc, hpolicy⟩, hunread, rfl⟩
  · next h =>
    exact .inr ⟨fun ⟨⟨hrun, hphase, henc, hpolicy⟩, hunread⟩ => h ⟨hrun, hphase, henc, hpolicy, hunread⟩, rfl⟩

/-- A field not yet read is read now. -/
theorem sample_unread {s : State} {f : PoField} (hreads : ReadsFields s) (hunread : f ∉ s.latched) :
    s.sample f = { s with latched := f :: s.latched, latch := f.copy s.po s.latch } := by
  obtain ⟨-, -, heq⟩ | ⟨hnot, -⟩ := sample_cases s f
  · exact heq
  · exact absurd ⟨hreads, hunread⟩ hnot

/-- Under SNAPSHOT whole no field is read ahead. -/
theorem sample_whole {s : State} (f : PoField) (hpolicy : s.cfg.snapshotPolicy = .whole) : s.sample f = s := by
  obtain ⟨⟨-, -, -, hperField⟩, -, -⟩ | ⟨-, heq⟩ := sample_cases s f
  · rw [hpolicy] at hperField
    cases hperField
  · exact heq

/-- A field that has been read keeps its value: a later moment reads another field or nothing. -/
theorem sample_keeps_read {s : State} {f : PoField} (g : PoField) (hread : f ∈ s.latched) :
    f ∈ (s.sample g).latched ∧ ∀ x, f.copy (s.sample g).latch x = f.copy s.latch x := by
  obtain ⟨-, hunread, heq⟩ | ⟨-, heq⟩ := sample_cases s g <;> rw [heq]
  · have hne : f ≠ g := fun h => hunread (h ▸ hread)
    exact ⟨List.mem_cons_of_mem g hread, copy_copy_ne hne s.po s.latch⟩
  · exact ⟨hread, fun _ => rfl⟩

/-! ## What ENCODE sees -/

/-- Field by field, ENCODE sees the latch where it has read and PO where it has not. -/
theorem copy_snapshot (s : State) (f : PoField) (x : PendingOutput) :
    f.copy s.snapshot x = if f ∈ s.latched then f.copy s.latch x else f.copy s.po x :=
  copy_foldl s.latch x f s.latched s.po

/-- The field read last is seen as PO held it then, whatever is written to PO afterwards; the fields read before it follow. -/
theorem snapshot_sample {s : State} {f : PoField} (po : PendingOutput) (hreads : ReadsFields s) (hunread : f ∉ s.latched) :
    ({ s.sample f with po := po } : State).snapshot
      = s.latched.foldl (fun p g => g.copy (s.sample f).latch p) (f.copy s.po po) := by
  simp [sample_unread hreads hunread, State.snapshot]

/-- One field read and then PO overwritten: the old value of that field, the new ones of all others. -/
theorem snapshot_sample_one {s : State} {f : PoField} (po : PendingOutput) (hreads : ReadsFields s)
    (hnone : s.latched = []) : ({ s.sample f with po := po } : State).snapshot = f.copy s.po po := by
  rw [snapshot_sample po hreads (by simp [hnone]), hnone, List.foldl_nil]

/-- Two fields read with PO overwritten after each read: each field as it was at its own read. -/
theorem snapshot_sample_two {s : State} {f g : PoField} (po po' : PendingOutput) (hreads : ReadsFields s)
    (hnone : s.latched = []) (hne : f ≠ g) :
    ({ ({ s.sample f with po := po } : State).sample g with po := po' } : State).snapshot
      = f.copy s.po (g.copy po po') := by
  have hfirst := sample_unread (f := f) hreads (by simp [hnone])
  have hreads' : ReadsFields { s.sample f with po := po } := by rw [hfirst]; exact hreads
  have hunread : g ∉ ({ s.sample f with po := po } : State).latched := by simp [hfirst, hnone, hne.symm]
  rw [snapshot_sample po' hreads' hunread, sample_unread hreads' hunread]
  simp [hfirst, hnone, copy_copy_ne hne]

/-- Settles O44, from what one read does and what the fields read so far leave of PO. -/
theorem encodeSeesEachFieldAtTheMomentItIsRead : Obligations.EncodeSeesEachFieldAtTheMomentItIsRead := by
  refine ⟨fun a b => eq_of_copy_eq, fun s f ts hturns => ?_, fun s f hrun hphase henc hpolicy hunread => ?_,
    fun s f g => sample_keeps_read g, fun s f x => ?_, fun s hnone => ?_,
    fun s f po hrun hphase henc hpolicy => snapshot_sample_one po ⟨hrun, hphase, henc, hpolicy⟩,
    fun s f g po po' hrun hphase henc hpolicy => snapshot_sample_two po po' ⟨hrun, hphase, henc, hpolicy⟩,
    fun s f => sample_whole f⟩
  · exact ⟨by simp only [step_eq, hturns, takeTurn], sample_po _ f⟩
  · rw [sample_unread ⟨hrun, hphase, henc, hpolicy⟩ hunread]
    exact ⟨fun g => List.mem_cons, copy_copy_same f s.po s.latch⟩
  · exact ⟨fun hread => by rw [copy_snapshot, if_pos hread], fun hunread => by rw [copy_snapshot, if_neg hunread]⟩
  · simp [State.snapshot, hnone]

/-! ## A held STOP -/

/-- A response is given after the loop has ended, and nothing passes the transport ports with it (spec/20_memory.md R77). -/
def AnsweredAfterTheEnd (s t : State) : Prop :=
  s.run = .stoppedFinal ∧ t.run = .stoppedFinal ∧ t.trace = s.trace ∧ ∃ r, t.resps = r :: s.resps

/-- While STOP holds the port no command word is presented. -/
theorem not_presented_of_held {s : State} {i : Instr} {rest : List Word} {c : Held} (hheld : s.held = some c) :
    ¬Presented s i rest := by
  rintro ⟨hfree, -⟩
  rw [hheld] at hfree
  cases hfree

/-- A turn of the caller takes a held STOP up again: only the two answers of STOP in STOPPED_FINAL free the port. -/
theorem callerEffect_held_stop {s t : State} (h : CallerEffect s t) (hheld : s.held = some .stop) :
    t.held = some .stop ∨ AnsweredAfterTheEnd s t := by
  cases h with
  | wait | startRefused | startUnavailable | stopRefused | illegalWord => exact .inl hheld
  | startIssued hport | setter hport => exact absurd hport (not_presented_of_held hheld)
  | stopRequested => exact .inl rfl
  | stopReportsFailure _ hrun | stopReportsOk _ hrun => exact .inr ⟨hrun, hrun, rfl, _, rfl⟩

/-- The worker frees the port only when DETECT answers for START. -/
theorem workerEffect_held {s t : State} (h : WorkerEffect s t) : t.held = s.held ∨ s.phase = .detect := by
  cases h with
  | detectIoFails _ hphase | detectFindsNoMode _ hphase | detected _ hphase => exact .inr hphase
  | fieldsEncoded => exact .inl (encodeFields_held s)
  | _ => exact .inl rfl

/-- DETECT runs for START, so the worker never frees a port that STOP holds. -/
theorem workerEffect_held_stop {s t : State} (h : WorkerEffect s t) (hdetect : s.phase = .detect ↔ s.held = some .start)
    (hheld : s.held = some .stop) : t.held = some .stop := by
  obtain heq | hphase := workerEffect_held h
  · exact heq.trans hheld
  · rw [hdetect.mp hphase] at hheld
    cases hheld

theorem takeTurn_held_stop {k : Turn} {s t : State} (hdetect : s.phase = .detect ↔ s.held = some .start)
    (hheld : s.held = some .stop) (h : takeTurn k s = .next t) : t.held = some .stop ∨ AnsweredAfterTheEnd s t := by
  cases k with
  | caller => exact callerEffect_held_stop (callerTurn_effect h) hheld
  | worker => exact .inl (workerEffect_held_stop (workerTurn_effect h) hdetect hheld)
  | sample f => cases h; exact .inl ((sample_held s f).trans hheld)

theorem step_held_stop {s t : State} (hdetect : s.phase = .detect ↔ s.held = some .start)
    (hheld : s.held = some .stop) (h : step s = .next t) : t.held = some .stop ∨ AnsweredAfterTheEnd s t := by
  obtain ⟨-, rfl⟩ | ⟨k, rest, -, hturn⟩ := step_next_cases h
  · exact .inl hheld
  · exact takeTurn_held_stop (s := { s with turns := rest }) hdetect hheld hturn

/-- Settles O53: the answer of a held STOP leaves the trace alone, and that holds one close once the loop has ended. -/
theorem stopAnswersOnlyAfterTheLoopHasEnded : Obligations.StopAnswersOnlyAfterTheLoopHasEnded := by
  intro s t hs hheld h hfree
  obtain ⟨hend, hend', htrace, hresps⟩ := (step_held_stop hs.detectForStart hheld h).resolve_left hfree
  refine ⟨hend, hend', htrace, hresps, fun herr => ?_⟩
  rw [htrace, hs.closedOnce, if_pos ⟨hend, herr⟩]

end Sys2Proof.Machine
end

section
/-! PROOFS. The encodings (spec/30_encoding.md): the decoder said once per opcode, decode after encode, the illegal words, and
the fields an operation does not use. -/

namespace Sys2Proof.Machine

/-! ## The first table of R111, one equation per row -/

section
variable {w : Word}

theorem decodeCommand_start (h : opField w = 0x01#8) : decodeCommand w = .ok .start := by simp [decodeCommand, h]

theorem decodeCommand_stop (h : opField w = 0x02#8) : decodeCommand w = .ok .stop := by simp [decodeCommand, h]

theorem decodeCommand_setmotor (h : opField w = 0x10#8) :
    decodeCommand w = (sideOfSel (selField w)).map (fun m => .setmotor m (aField w)) := by simp [decodeCommand, h]

theorem decodeCommand_setmode (h : opField w = 0x11#8) :
    decodeCommand w = (sideOfSel (selField w)).map (fun t => .setmode t (aField w)) := by simp [decodeCommand, h]

theorem decodeCommand_setforce (h : opField w = 0x12#8) :
    decodeCommand w = (sideOfSel (selField w)).map (fun t => .setforce t (aField w) (bField w)) := by
  simp [decodeCommand, h]

theorem decodeCommand_setled (h : opField w = 0x13#8) : decodeCommand w = .ok (.setled (aField w)) := by
  simp [decodeCommand, h]

theorem decodeCommand_setpulse (h : opField w = 0x14#8) : decodeCommand w = .ok (.setpulse (aField w)) := by
  simp [decodeCommand, h]

theorem decodeCommand_setbright (h : opField w = 0x15#8) : decodeCommand w = .ok (.setbright (aField w)) := by
  simp [decodeCommand, h]

theorem decodeCommand_setplayer (h : opField w = 0x16#8) : decodeCommand w = .ok (.setplayer (aField w)) := by
  simp [decodeCommand, h]

theorem decodeCommand_setrgb (h : opField w = 0x17#8) :
    decodeCommand w = .ok (.setrgb (aField w) (bField w) (cField w)) := by simp [decodeCommand, h]

theorem decodeCommand_setmicled (h : opField w = 0x18#8) : decodeCommand w = .ok (.setmicled (aField w)) := by
  simp [decodeCommand, h]

theorem decodeCommand_setmicmute (h : opField w = 0x19#8) : decodeCommand w = .ok (.setmicmute (aField w)) := by
  simp [decodeCommand, h]

theorem fitsOperand_aField : fitsOperand (aField w) = true := fitsOperand_toInt _

theorem fitsOperand_bField : fitsOperand (bField w) = true := fitsOperand_toInt _

theorem fitsOperand_cField : fitsOperand (cField w) = true := fitsOperand_toInt _

/-- The opcodes of the table whose words carry a selector. -/
def sidedOpcodes : List (BitVec 8) := [0x10#8, 0x11#8, 0x12#8]

/-- The other opcodes of the table. -/
def plainOpcodes : List (BitVec 8) := [0x01#8, 0x02#8, 0x13#8, 0x14#8, 0x15#8, 0x16#8, 0x17#8, 0x18#8, 0x19#8]

theorem decodeCommand_unknown (hsided : opField w ∉ sidedOpcodes) (hplain : opField w ∉ plainOpcodes) :
    decodeCommand w = .error (.unknownOpcode (opField w)) := by
  unfold decodeCommand
  split
  case h_13 => rfl
  all_goals
    next hop => simp_all [sidedOpcodes, plainOpcodes, ← BitVec.toNat_inj]

/-- A word without a selector always decodes; its operands fit their fields. -/
theorem decodeCommand_plain (h : opField w ∈ plainOpcodes) : ∃ i, decodeCommand w = .ok i ∧ i.wf = true := by
  simp only [plainOpcodes, List.mem_cons, List.not_mem_nil, or_false] at h
  obtain h | h | h | h | h | h | h | h | h := h
  · exact ⟨_, decodeCommand_start h, rfl⟩
  · exact ⟨_, decodeCommand_stop h, rfl⟩
  · exact ⟨_, decodeCommand_setled h, fitsOperand_aField⟩
  · exact ⟨_, decodeCommand_setpulse h, fitsOperand_aField⟩
  · exact ⟨_, decodeCommand_setbright h, fitsOperand_aField⟩
  · exact ⟨_, decodeCommand_setplayer h, fitsOperand_aField⟩
  · exact ⟨_, decodeCommand_setrgb h, by simp [Instr.wf, fitsOperand_aField, fitsOperand_bField, fitsOperand_cField]⟩
  · exact ⟨_, decodeCommand_setmicled h, fitsOperand_aField⟩
  · exact ⟨_, decodeCommand_setmicmute h, fitsOperand_aField⟩

/-- A word with a selector decodes as its selector does; its operands fit their fields. -/
theorem decodeCommand_sided (h : opField w ∈ sidedOpcodes) :
    ∃ f : Side → Instr, decodeCommand w = (sideOfSel (selField w)).map f ∧ ∀ t, (f t).wf = true := by
  simp only [sidedOpcodes, List.mem_cons, List.not_mem_nil, or_false] at h
  obtain h | h | h := h
  · exact ⟨_, decodeCommand_setmotor h, fun _ => fitsOperand_aField⟩
  · exact ⟨_, decodeCommand_setmode h, fun _ => fitsOperand_aField⟩
  · exact ⟨_, decodeCommand_setforce h, fun _ => by simp [Instr.wf, fitsOperand_aField, fitsOperand_bField]⟩

end

/-! ## Decode after encode -/

/-- Decoding gives back a well-formed operation from its encoding: the fields are read as they were written. -/
theorem decode_encode {i : Instr} (hwf : i.wf = true) : decode (encode i) = .ok i := by
  cases i with
  | setmotor m v =>
    exact (decodeCommand_setmotor (opField_commandWord ..)).trans (by simp [Except.map, operandField_toInt hwf])
  | setmode t m =>
    exact (decodeCommand_setmode (opField_commandWord ..)).trans (by simp [Except.map, operandField_toInt hwf])
  | setforce t k v =>
    simp only [Instr.wf, Bool.and_eq_true] at hwf
    obtain ⟨hk, hv⟩ := hwf
    exact (decodeCommand_setforce (opField_commandWord ..)).trans
      (by simp [Except.map, operandField_toInt hk, operandField_toInt hv])
  | setled v => exact (decodeCommand_setled (opField_commandWord ..)).trans (by simp [operandField_toInt hwf])
  | setpulse v => exact (decodeCommand_setpulse (opField_commandWord ..)).trans (by simp [operandField_toInt hwf])
  | setbright v => exact (decodeCommand_setbright (opField_commandWord ..)).trans (by simp [operandField_toInt hwf])
  | setplayer v => exact (decodeCommand_setplayer (opField_commandWord ..)).trans (by simp [operandField_toInt hwf])
  | setrgb r g b =>
    simp only [Instr.wf, Bool.and_eq_true] at hwf
    obtain ⟨⟨hr, hg⟩, hb⟩ := hwf
    exact (decodeCommand_setrgb (opField_commandWord ..)).trans
      (by simp [operandField_toInt hr, operandField_toInt hg, operandField_toInt hb])
  | setmicled v => exact (decodeCommand_setmicled (opField_commandWord ..)).trans (by simp [operandField_toInt hwf])
  | setmicmute v => exact (decodeCommand_setmicmute (opField_commandWord ..)).trans (by simp [operandField_toInt hwf])
  | start | stop | detect | read | decode | diff | encode | write | close | crc32 => rfl

/-- Settles O4, by the rows of the opcode table. -/
theorem decodeOfEncodeIsIdentity : Obligations.DecodeOfEncodeIsIdentity := fun _ => decode_encode

/-- Settles O5: fixed words, evaluated. -/
theorem specWordsDecodeToTheirOperations : Obligations.SpecWordsDecodeToTheirOperations := by
  unfold Obligations.SpecWordsDecodeToTheirOperations
  decide

/-! ## The illegal words (R114) -/

/-- Exactly the selectors 0 and 1 name a side. -/
theorem sideOfSel_map_error_iff {sel : BitVec 8} {f : Side → Instr} :
    (∃ e, (sideOfSel sel).map f = .error e) ↔ sel ≠ 0#8 ∧ sel ≠ 1#8 := by
  unfold sideOfSel
  split
  · next hleft => simp [hleft, Except.map]
  · next hleft =>
    split
    · next hright => simp [hright, Except.map]
    · next hright => simp [hleft, hright, Except.map]

/-- A word is illegal exactly when its opcode is in neither list or its selector names no side. -/
theorem decodeCommand_error_iff {w : Word} :
    (∃ e, decodeCommand w = .error e) ↔
      (opField w ∉ sidedOpcodes ∧ opField w ∉ plainOpcodes)
      ∨ (opField w ∈ sidedOpcodes ∧ selField w ≠ 0#8 ∧ selField w ≠ 1#8) := by
  by_cases hsided : opField w ∈ sidedOpcodes
  · obtain ⟨f, hf, -⟩ := decodeCommand_sided hsided
    rw [hf, sideOfSel_map_error_iff]
    simp [hsided]
  · by_cases hplain : opField w ∈ plainOpcodes
    · obtain ⟨i, hi, -⟩ := decodeCommand_plain hplain
      simp [hi, hsided, hplain]
    · simp [decodeCommand_unknown hsided hplain, hsided, hplain]

/-- At a turn of the caller with the port free, a legal word is performed (spec/60_exceptions.md R311). -/
theorem step_command {s : State} {w : Word} {i : Instr} {ws : List Word} {ts : List Turn} (hturns : s.turns = .caller :: ts)
    (hfree : s.held = none) (hcmds : s.cmds = w :: ws) (hword : decode (.cmd w) = .ok i) :
    step s = exec i { s with turns := ts, cmds := ws } := by
  simp only [step, hturns, takeTurn, callerTurn, hfree, hcmds, hword]

/-- At such a turn an illegal word is answered and changes nothing else: IllegalCommand sets no bit of `ERR`. -/
theorem step_illegalWord {s : State} {w : Word} {e : DecodeError} {ws : List Word} {ts : List Turn}
    (hturns : s.turns = .caller :: ts) (hfree : s.held = none) (hcmds : s.cmds = w :: ws)
    (hword : decodeCommand w = .error e) :
    step s = .next { s with turns := ts, cmds := ws, resps := .error .illegalCommand :: s.resps } := by
  simp [step, hturns, takeTurn, callerTurn, hfree, hcmds, decode, hword, State.takeError, stickyBit]

/-- Settles O6: the opcodes of R114 are the two lists together. -/
theorem illegalCommandWordsChangeNothing : Obligations.IllegalCommandWordsChangeNothing := by
  refine ⟨fun w => ?_, fun s w e ws ts => step_illegalWord⟩
  have hopcodes :
      opField w ∉ [0x01#8, 0x02#8, 0x10#8, 0x11#8, 0x12#8, 0x13#8, 0x14#8, 0x15#8, 0x16#8, 0x17#8, 0x18#8, 0x19#8]
        ↔ opField w ∉ sidedOpcodes ∧ opField w ∉ plainOpcodes := by
    simp only [sidedOpcodes, plainOpcodes, List.mem_cons, List.not_mem_nil, or_false]
    tauto
  rw [hopcodes]
  exact decodeCommand_error_iff

/-! ## Well-formed operations and unused fields (R110) -/

theorem decodeCommand_wf {w : Word} {i : Instr} (h : decodeCommand w = .ok i) : i.wf = true := by
  by_cases hsided : opField w ∈ sidedOpcodes
  · obtain ⟨f, hf, hwf⟩ := decodeCommand_sided hsided
    rw [hf] at h
    cases hsel : sideOfSel (selField w) with
    | error e => rw [hsel] at h; cases h
    | ok t => rw [hsel] at h; cases h; exact hwf t
  · by_cases hplain : opField w ∈ plainOpcodes
    · obtain ⟨j, hj, hwf⟩ := decodeCommand_plain hplain
      rw [hj] at h
      cases h
      exact hwf
    · rw [decodeCommand_unknown hsided hplain] at h
      cases h

theorem decodePhase_wf {p : BitVec 3} {i : Instr} (h : decodePhase p = .ok i) : i.wf = true := by
  unfold decodePhase at h
  split at h <;> cases h <;> rfl

theorem decodeSub_wf {sel : BitVec 4} {i : Instr} (h : decodeSub sel = .ok i) : i.wf = true := by
  unfold decodeSub at h
  split at h <;> cases h
  rfl

/-- The words of the setters with operand a alone decode by their opcode and that operand. -/
theorem decodeCommand_congr_aField {w w' : Word} (hop : opField w = opField w')
    (hlist : opField w ∈ [0x13#8, 0x14#8, 0x15#8, 0x16#8, 0x18#8, 0x19#8]) (ha : aField w = aField w') :
    decodeCommand w = decodeCommand w' := by
  simp only [List.mem_cons, List.not_mem_nil, or_false] at hlist
  obtain h | h | h | h | h | h := hlist
  · rw [decodeCommand_setled h, decodeCommand_setled (hop ▸ h), ha]
  · rw [decodeCommand_setpulse h, decodeCommand_setpulse (hop ▸ h), ha]
  · rw [decodeCommand_setbright h, decodeCommand_setbright (hop ▸ h), ha]
  · rw [decodeCommand_setplayer h, decodeCommand_setplayer (hop ▸ h), ha]
  · rw [decodeCommand_setmicled h, decodeCommand_setmicled (hop ▸ h), ha]
  · rw [decodeCommand_setmicmute h, decodeCommand_setmicmute (hop ▸ h), ha]

/-- Settles O7: operands are read from 16-bit fields, and the equation of an opcode names the fields it uses. -/
theorem decodedOperationsAreWellFormedAndIgnoreUnusedFields :
    Obligations.DecodedOperationsAreWellFormedAndIgnoreUnusedFields := by
  refine ⟨fun e i h => ?_, fun w w' hop => ⟨?_, decodeCommand_congr_aField hop, ?_, ?_, ?_⟩⟩
  · cases e with
    | cmd w => exact decodeCommand_wf h
    | seq p => exact decodePhase_wf h
    | sub sel => exact decodeSub_wf h
  · rintro (h | h)
    · rw [decodeCommand_start h, decodeCommand_start (hop ▸ h)]
    · rw [decodeCommand_stop h, decodeCommand_stop (hop ▸ h)]
  · rintro (h | h) hsel ha
    · rw [decodeCommand_setmotor h, decodeCommand_setmotor (hop ▸ h), hsel, ha]
    · rw [decodeCommand_setmode h, decodeCommand_setmode (hop ▸ h), hsel, ha]
  · intro h hsel ha hb
    rw [decodeCommand_setforce h, decodeCommand_setforce (hop ▸ h), hsel, ha, hb]
  · intro h ha hb hc
    rw [decodeCommand_setrgb h, decodeCommand_setrgb (hop ▸ h), ha, hb, hc]

end Sys2Proof.Machine
end

section
/-! PROOFS. Words that run: a placed table word is the next operation (log entry 15), and the pseudo-operations run as their
setters (spec/30_encoding.md R113). -/

namespace Sys2Proof.Machine

/-! ## A placed table word -/

theorem step_selected {s : State} {e : Encoded} {i : Instr} {ts : List Turn} (hturns : s.turns = .worker :: ts)
    (hsel : s.selector = some e) (hdecode : decode e = .ok i) : step s = exec i { s with turns := ts } := by
  simp only [step, hturns]
  exact workerTurn_of_selector (s := { s with turns := ts }) i hsel hdecode

theorem decode_of_decodeTableWord {nbits w : Nat} {i : Instr} (h : decodeTableWord nbits w = some i) :
    decode (tableEncoding nbits w) = .ok i := by
  unfold decodeTableWord at h
  split at h
  · split at h
    · next hdecode => cases h; exact hdecode
    · cases h
  · cases h

theorem phaseCode_phaseOfCode : ∀ c : BitVec 3, phaseCode (phaseOfCode c) = c := by decide

/-- A code that selects a micro-operation is not that of the cycle boundary. -/
theorem phaseOfCode_ne_idle {c : BitVec 3} {i : Instr} (h : decodePhase c = .ok i) : phaseOfCode c ≠ .idle := by
  intro hidle
  rw [← phaseCode_phaseOfCode c, hidle] at h
  cases h

theorem atPhase_selector (s : State) {p : Phase} (h : p ≠ .idle) : (s.atPhase p).selector = some (.seq (phaseCode p)) := by
  cases p with
  | idle => exact absurd rfl h
  | detect | read | decode | diff | encode | write | close => rfl

/-- In Bluetooth mode ENCODE's fields are followed by the call of CRC32 (spec/42_encoder.md R190). -/
theorem encodeFields_bt_stage {s : State} (h : s.mode = .bt) :
    s.encodeFields.enc = .crcCalled ∧ s.encodeFields.phase = .encode := by
  unfold State.encodeFields
  rw [h]
  exact ⟨rfl, rfl⟩

/-- What placing an operation leaves of a state. -/
def SameRegisters (s t : State) : Prop :=
  t.cmds = s.cmds ∧ t.cs = s.cs ∧ t.po = s.po ∧ t.inbuf = s.inbuf ∧ t.err = s.err

theorem atPhase_sameRegisters (s : State) (p : Phase) : SameRegisters s (s.atPhase p) := by
  cases p <;> exact ⟨rfl, rfl, rfl, rfl, rfl⟩

/-- The operation of an encoding that is placed is the next one performed, in a state whose turns, commands and registers are
those before. -/
theorem step_place (s : State) {e : Encoded} {i : Instr} (hdecode : decode e = .ok i) :
    ∃ s' : State, step (s.place e) = exec i s' ∧ s'.turns = s.turns ∧ SameRegisters s s' := by
  cases e with
  | cmd w => exact ⟨_, step_command (s := s.place (.cmd w)) rfl rfl rfl hdecode, rfl, rfl, rfl, rfl, rfl, rfl⟩
  | seq p =>
    have hsel : (s.place (.seq p)).selector = some (.seq p) := by
      have h := atPhase_selector s (phaseOfCode_ne_idle hdecode)
      rw [phaseCode_phaseOfCode] at h
      exact h
    exact ⟨_, step_selected rfl hsel hdecode, rfl, atPhase_sameRegisters s _⟩
  | sub sel =>
    have hsel : (s.place (.sub sel)).selector = some (.sub (modeCode .bt ++ phaseCode .encode)) := by
      simp [State.place, State.selector, encodeFields_bt_stage]
    have hcrc : i = .crc32 := by
      simp only [decode, decodeSub] at hdecode
      split at hdecode <;> cases hdecode
      rfl
    subst hcrc
    exact ⟨_, step_selected rfl hsel rfl, rfl, rfl, rfl, rfl, rfl, rfl⟩

/-- Settles O10, by format of the encoding. -/
theorem placedTableWordRunsNext : Obligations.PlacedTableWordRunsNext := by
  intro s nbits w i h
  obtain ⟨s', hstep, hturns, hcmds, hcs, hpo, hinbuf, herr⟩ := step_place s (decode_of_decodeTableWord h)
  exact ⟨s', hstep, hturns, hcmds, hcs, hpo, hinbuf, herr⟩

/-! ## Accepted setters in a row -/

/-- The operation has a command word, answers OK and writes `g` to PO, in every state. -/
def Accepted (i : Instr) (g : PendingOutput → PendingOutput) : Prop :=
  i.wf = true ∧ ∀ s : State, exec i s = .next { s with po := g s.po, resps := .ok :: s.resps }

theorem run_succ_of_step {s t : State} (n : Nat) (h : step s = .next t) :
    Host.Core.run Sys2Proof.core (n + 1) s = Host.Core.run Sys2Proof.core n t := by
  have hcore : Sys2Proof.core.step s = .next t := h
  simp only [Host.Core.run, hcore]

/-- Accepted setters, presented one after the other at turns of the caller, all write and all answer. -/
theorem run_accepted {is : List Instr} {gs : List (PendingOutput → PendingOutput)} (h : List.Forall₂ Accepted is gs)
    {s : State} {ws cs : List Word} {ts : List Turn} (hws : is.map encode = ws.map Encoded.cmd) (hfree : s.held = none)
    (hcmds : s.cmds = ws ++ cs) (hturns : s.turns = List.replicate is.length .caller ++ ts) :
    Host.Core.run Sys2Proof.core is.length s = .next
      ({ s with cmds := cs, turns := ts, resps := List.replicate is.length .ok ++ s.resps
                po := gs.foldl (fun po g => g po) s.po } : State) := by
  induction h generalizing s ws with
  | nil =>
    obtain rfl : ws = [] := by simpa using hws.symm
    obtain rfl : s.cmds = cs := hcmds
    obtain rfl : s.turns = ts := hturns
    rfl
  | @cons i g is gs hi _ ih =>
    cases ws with
    | nil => cases hws
    | cons w ws =>
      obtain ⟨hwf, hexec⟩ := hi
      obtain ⟨hw, hws⟩ := List.cons.inj hws
      have hword : decode (.cmd w) = .ok i := hw ▸ decode_encode hwf
      have hstep : step s = .next
          ({ s with cmds := ws ++ cs, turns := List.replicate is.length .caller ++ ts, resps := .ok :: s.resps
                    po := g s.po } : State) :=
        (step_command hturns hfree hcmds hword).trans (hexec _)
      rw [List.length_cons, run_succ_of_step _ hstep, ih hws]
      · simp [List.replicate_succ']
      · exact hfree
      · rfl
      · rfl

/-! ## The setters of RUMBLE and SETTRIG -/

theorem fitsOperand_of_byte {v : Int} (h : 0 ≤ v ∧ v ≤ 255) : fitsOperand v = true := by
  simp only [fitsOperand, decide_eq_true_eq]
  omega

theorem accepted_setmotor (m : Side) {v : Int} (h : 0 ≤ v ∧ v ≤ 255) :
    Accepted (.setmotor m v) (fun po => po.setMotor m (byteOf v)) := by
  refine ⟨fitsOperand_of_byte h, fun s => ?_⟩
  simp [exec, execSetmotor, State.setter, inByte, h, State.respond]

theorem accepted_setmode (t : Side) {m : Int}
    (h : m ∈ ([0x00, 0x01, 0x02, 0x21, 0x05, 0x25, 0x22, 0x06, 0x26, 0xFC] : List Int)) :
    Accepted (.setmode t m) (fun po => po.setMode t (byteOf m)) := by
  have hlegal : ∀ m ∈ ([0x00, 0x01, 0x02, 0x21, 0x05, 0x25, 0x22, 0x06, 0x26, 0xFC] : List Int),
      fitsOperand m = true ∧ isModeByte m = true := by decide
  obtain ⟨hfits, hmode⟩ := hlegal m h
  refine ⟨hfits, fun s => ?_⟩
  simp [exec, execSetmode, State.setter, hmode, State.respond]

theorem accepted_setforce (t : Side) {k : Nat} (hk : k < 7) {v : Int} (h : 0 ≤ v ∧ v ≤ 255) :
    Accepted (.setforce t k v) (fun po => po.setForce t k (byteOf v)) := by
  have hslot : inSlot k = true := by simp only [inSlot, decide_eq_true_eq]; omega
  refine ⟨?_, fun s => ?_⟩
  · simp [Instr.wf, fitsOperand_of_byte h, fitsOperand_of_byte (v := k) (by omega)]
  · simp [exec, execSetforce, State.setter, hslot, inByte, h, State.respond]

/-- What SETFORCE for successive slots from `k` on writes. -/
def forceWritesFrom (t : Side) : Nat → List Int → List (PendingOutput → PendingOutput)
  | _, [] => []
  | k, v :: vs => (fun po => po.setForce t k (byteOf v)) :: forceWritesFrom t (k + 1) vs

theorem accepted_setforcesFrom (t : Side) {k : Nat} {vs : List Int} (hslots : k + vs.length ≤ 7)
    (hbytes : ∀ v ∈ vs, 0 ≤ v ∧ v ≤ 255) : List.Forall₂ Accepted (setforcesFrom t k vs) (forceWritesFrom t k vs) := by
  induction vs generalizing k with
  | nil => exact .nil
  | cons v vs ih =>
    rw [List.length_cons] at hslots
    obtain ⟨hv, hvs⟩ := List.forall_mem_cons.mp hbytes
    exact .cons (accepted_setforce t (by omega) hv) (ih (k := k + 1) (by omega) hvs)

theorem setForce_setTrig (po : PendingOutput) (t : Side) (e : TriggerEffect) (k : Nat) (b : Byte) :
    (po.setTrig t e).setForce t k b = po.setTrig t { e with force := e.force.setIfInBounds k b } := by
  simp [PendingOutput.setForce]

/-- Seven slots written one by one are the whole vector. -/
theorem setIfInBounds_seven (f : Vector Byte 7) (b0 b1 b2 b3 b4 b5 b6 : Byte) :
    ((((((f.setIfInBounds 0 b0).setIfInBounds 1 b1).setIfInBounds 2 b2).setIfInBounds 3 b3).setIfInBounds 4
      b4).setIfInBounds 5 b5).setIfInBounds 6 b6 = #v[b0, b1, b2, b3, b4, b5, b6] := by
  ext i hi
  interval_cases i <;> simp

/-- The expansion of SETTRIG leaves the whole trigger. -/
theorem foldl_settrig (po : PendingOutput) (t : Side) (m v0 v1 v2 v3 v4 v5 v6 : Int) :
    ((fun po => po.setMode t (byteOf m)) :: forceWritesFrom t 0 [v0, v1, v2, v3, v4, v5, v6]).foldl (fun po g => g po) po
      = po.setTrig t { mode := byteOf m
                       force := #v[byteOf v0, byteOf v1, byteOf v2, byteOf v3, byteOf v4, byteOf v5, byteOf v6] } := by
  simp only [forceWritesFrom, List.foldl_cons, List.foldl_nil, PendingOutput.setMode, setForce_setTrig, Nat.reduceAdd,
    setIfInBounds_seven]

/-- Settles O18: every setter of the expansion is accepted, so they run in a row. -/
theorem pseudoOperationsRunAsTheirSetters : Obligations.PseudoOperationsRunAsTheirSetters := by
  refine ⟨fun s l r ws cs ts hl hr hws hfree hcmds hturns => ?_,
    fun s t m v0 v1 v2 v3 v4 v5 v6 ws cs ts hm hv hws hfree hcmds hturns => ?_⟩
  · have hacc := List.Forall₂.cons (accepted_setmotor .left hl) (.cons (accepted_setmotor .right hr) .nil)
    exact run_accepted hacc hws hfree hcmds hturns
  · have hacc := List.Forall₂.cons (accepted_setmode t hm)
      (accepted_setforcesFrom t (k := 0) (by simp) hv)
    have hrun := run_accepted hacc hws hfree hcmds hturns
    rwa [foldl_settrig] at hrun

end Sys2Proof.Machine
end

section
/-! PROOFS. The bytes of a report that no rule assigns (spec/30_encoding.md R106). -/

namespace Sys2Proof.Machine

/-- Before the checksum a report is its body. -/
theorem encodeReport_getElem?_body (cfg : Config) (mode : ConnMode) (po : PendingOutput) {k : Nat}
    (hk : mode = .bt → k < crcTail) : (encodeReport cfg mode po)[k]? = (reportBody cfg mode po)[k]? := by
  cases mode with
  | usb => rfl
  | bt =>
    have hlt := hk rfl
    rw [encodeReport, List.getElem?_append_left (by simpa [outLen, crcTail] using hlt), List.getElem?_take_of_lt hlt]

/-- The offsets after the marker bytes that `OUTMAP` does not give to a field are zero. -/
theorem encodeReport_unassigned (cfg : Config) (mode : ConnMode) (po : PendingOutput) {k : Nat} (hlen : k < outLen mode)
    (hmarker : k ≠ 0) (hbt : mode = .bt → k ≠ 1 ∧ k < crcTail)
    (hfield : ∀ j ∈ outMapOffsets cfg.outMap, k ≠ j + outShift mode) : (encodeReport cfg mode po)[k]? = some 0#8 := by
  rw [encodeReport_getElem?_body cfg mode po fun h => (hbt h).2]
  apply reportBody_unassigned hlen
  rw [assignedBytes_offsets]
  intro hmem
  obtain hmem | hmem := List.mem_append.mp hmem
  · cases mode with
    | usb => simp [markerBytes, hmarker] at hmem
    | bt => simp [markerBytes, hmarker, (hbt rfl).1] at hmem
  · obtain ⟨j, hj, rfl⟩ := List.mem_map.mp hmem
    exact hfield j hj rfl

/-- Settles O42; with the default OUTMAP the listed offsets are after the marker and in no field. -/
theorem unassignedReportBytesAreZero : Obligations.UnassignedReportBytesAreZero := by
  refine ⟨fun cfg mode po k hlen hmarker hbt hfield => encodeReport_unassigned cfg mode po hlen hmarker hbt hfield,
    fun po k hk => ?_⟩
  have hlisted : ∀ k ∈ [5, 6, 7, 8, 18, 19, 21, 29, 30, 32, 33, 34, 35, 36, 37, 38, 40, 41] ++ (List.range 16).map (· + 48),
      k < outLen .usb ∧ k ≠ 0 ∧ ∀ j ∈ outMapOffsets defaultOutMap, k ≠ j + outShift .usb := by decide
  obtain ⟨hlen, hmarker, hfield⟩ := hlisted k hk
  exact encodeReport_unassigned defaultConfig .usb po hlen hmarker nofun hfield

end Sys2Proof.Machine
end

section
/-! PROOFS. The report decoder (spec/40_decoder.md): the length check, the arithmetic of each kind of field, and the bytes that
do not matter. -/

namespace Sys2Proof.Machine

/-! ## The payload and the length check (R131, R132) -/

theorem payload_getElem? (mode : ConnMode) (raw : List Byte) (i : Nat) :
    (payload mode raw)[i]? = raw[i + inPrefix mode]? := by
  rw [payload, List.getElem?_drop, Nat.add_comm]

theorem payload_length (mode : ConnMode) (raw : List Byte) : (payload mode raw).length = raw.length - inPrefix mode :=
  List.length_drop

theorem byteAt_eq (P : List Byte) (i : Nat) : byteAt P i = P[i]?.getD 0#8 := List.getD_eq_getElem?_getD

theorem getElem?_eq_byteAt {P : List Byte} {i : Nat} (h : i < P.length) : P[i]? = some (byteAt P i) := by
  rw [byteAt_eq, List.getElem?_eq_getElem h, Option.getD_some]

theorem byteAt_of_getElem? {P : List Byte} {i : Nat} {b : Byte} (h : P[i]? = some b) : byteAt P i = b := by
  rw [byteAt_eq, h, Option.getD_some]

theorem lengthOk_iff {cfg : Config} {mode : ConnMode} {P : List Byte} :
    lengthOk cfg mode P = true ↔ 41 ≤ P.length ∧ (batteryExposed cfg mode = true → 53 < P.length) := by
  simp only [lengthOk, Bool.and_eq_true, Bool.or_eq_true, Bool.not_eq_true', decide_eq_true_eq, imp_iff_not_or,
    Bool.not_eq_true]
  exact Iff.rfl

/-- A report that decodes has passed the length check. -/
theorem lengthOk_of_decodeReport {cfg : Config} {mode : ConnMode} {raw : List Byte} {cs : ControllerState}
    (h : decodeReport cfg mode raw = some cs) : lengthOk cfg mode (payload mode raw) = true := by
  unfold decodeReport at h
  split at h
  · assumption
  · cases h

/-- A report that decodes holds the payload bytes 0 to 40. -/
theorem getElem?_of_decodeReport {cfg : Config} {mode : ConnMode} {raw : List Byte} {cs : ControllerState}
    (h : decodeReport cfg mode raw = some cs) :
    ∀ i, i < 41 → raw[i + inPrefix mode]? = some (byteAt (payload mode raw) i) := by
  intro i hi
  obtain ⟨hlen, -⟩ := lengthOk_iff.mp (lengthOk_of_decodeReport h)
  rw [← payload_getElem?, getElem?_eq_byteAt (by omega)]

/-! ## Bits, nibbles and 16-bit values of the payload's bytes -/

theorem getLsbD_iff_div_mod (b : Byte) (i : Nat) : b.getLsbD i = true ↔ b.toNat / 2 ^ i % 2 = 1 := by
  rw [← BitVec.testBit_toNat, Nat.testBit_eq_decide_div_mod_eq, decide_eq_true_eq]

/-- Masking the `k` low bits is the remainder modulo `2 ^ k`. -/
theorem toNat_and_lowMask (b : Byte) {k : Nat} (hk : k ≤ 8) :
    (b &&& BitVec.ofNat 8 (2 ^ k - 1)).toNat = b.toNat % 2 ^ k := by
  have hmask : 2 ^ k - 1 < 2 ^ 8 := by
    have := Nat.pow_le_pow_right (n := 2) (by omega) hk
    omega
  rw [BitVec.toNat_and, BitVec.toNat_ofNat, Nat.mod_eq_of_lt hmask, Nat.and_two_pow_sub_one_eq_mod]

theorem toNat_and_0x0F (b : Byte) : (b &&& 0x0F#8).toNat = b.toNat % 16 := toNat_and_lowMask b (k := 4) (by decide)

theorem toNat_and_0x7F (b : Byte) : (b &&& 0x7F#8).toNat = b.toNat % 128 := toNat_and_lowMask b (k := 7) (by decide)

theorem dpadCode_eq (b : Byte) : dpadCode b = b.toNat % 16 := toNat_and_0x0F b

/-- A direction is set for exactly the codes of its row (R137). -/
theorem direction_iff (codes : List Nat) (b : Byte) : codes.contains (dpadCode b) = true ↔ b.toNat % 16 ∈ codes := by
  rw [dpadCode_eq, List.contains_iff_mem]

theorem s16_toNat (lo hi : Byte) : (s16 lo hi).toNat = 256 * hi.toNat + lo.toNat := by
  rw [s16, BitVec.toNat_append, ← Nat.shiftLeft_add_eq_or_of_lt lo.isLt, Nat.shiftLeft_eq, Nat.mul_comm]

theorem s16_toInt (lo hi : Byte) :
    (s16 lo hi).toInt = if 256 * hi.toNat + lo.toNat < 32768 then ((256 * hi.toNat + lo.toNat : Nat) : Int)
      else ((256 * hi.toNat + lo.toNat : Nat) : Int) - 65536 := by
  rw [BitVec.toInt_eq_toNat_cond, s16_toNat]
  split <;> split <;> omega

/-! ## The touch slots and the battery (R142, R143) -/

theorem touchSlotAt_id (P : List Byte) (o : Nat) : (touchSlotAt P o).id.toNat = (byteAt P o).toNat % 128 := by
  simp only [touchSlotAt, BitVec.toNat_setWidth, toNat_and_0x7F]
  omega

/-- The active bit is stored inverted. -/
theorem touchSlotAt_active (P : List Byte) (o : Nat) : (touchSlotAt P o).active = true ↔ (byteAt P o).toNat < 128 := by
  have hbyte : ∀ b : Byte, b &&& 0x80#8 = 0#8 ↔ b.toNat < 128 := by decide
  rw [touchSlotAt, decide_eq_true_eq, hbyte]

/-- The two parts of a 12-bit coordinate add up when they do not overlap and fit. -/
theorem toNat_setWidth_shiftLeft_or {hi lo : Byte} {k : Nat} (hlo : lo.toNat < 2 ^ k) (hfits : hi.toNat * 2 ^ k < 2 ^ 12) :
    (hi.setWidth 12 <<< k ||| lo.setWidth 12).toNat = hi.toNat * 2 ^ k + lo.toNat := by
  have hwide : ∀ b : Byte, (b.setWidth 12).toNat = b.toNat := fun b => BitVec.toNat_setWidth_of_le (by decide)
  rw [BitVec.toNat_or, BitVec.toNat_shiftLeft, hwide, hwide, Nat.shiftLeft_eq, Nat.mod_eq_of_lt hfits,
    ← Nat.shiftLeft_eq, Nat.shiftLeft_add_eq_or_of_lt hlo]

theorem toNat_highNibble (b : Byte) : ((b &&& 0xF0#8) >>> 4).toNat = b.toNat / 16 := by
  have hmask : ∀ c : Byte, (c &&& 0xF0#8) >>> 4 = c >>> 4 := by decide
  rw [hmask, BitVec.toNat_ushiftRight, Nat.shiftRight_eq_div_pow]

theorem touchSlotAt_x (P : List Byte) (o : Nat) :
    (touchSlotAt P o).x.toNat = (byteAt P (o + 2)).toNat % 16 * 256 + (byteAt P (o + 1)).toNat := by
  have hhi := toNat_and_0x0F (byteAt P (o + 2))
  rw [← hhi]
  exact toNat_setWidth_shiftLeft_or (k := 8) (BitVec.isLt _) (by omega)

theorem touchSlotAt_y (P : List Byte) (o : Nat) :
    (touchSlotAt P o).y.toNat = (byteAt P (o + 3)).toNat * 16 + (byteAt P (o + 2)).toNat / 16 := by
  have hlo := toNat_highNibble (byteAt P (o + 2))
  have hbyte := (byteAt P (o + 2)).isLt
  have hhi := (byteAt P (o + 3)).isLt
  rw [← hlo]
  exact toNat_setWidth_shiftLeft_or (k := 4) (by omega) (by omega)

theorem batteryOf_state_toNat (b : Byte) : (batteryOf b).state.toNat = b.toNat / 16 := by
  have hb := b.isLt
  simp only [batteryOf, BitVec.toNat_setWidth, BitVec.toNat_ushiftRight, Nat.shiftRight_eq_div_pow]
  omega

theorem batteryOf_level_toNat (b : Byte) : (batteryOf b).level.toNat = min (b.toNat % 16 * 10 + 5) 100 := by
  simp only [batteryOf, toNat_and_0x0F, BitVec.toNat_ofNat]
  omega

theorem fieldsOf_bat {P : List Byte} (h : 53 < P.length) : (fieldsOf P).bat = batteryOf (byteAt P 53) := if_pos h

/-! ## The bytes that matter (R144) -/

/-- The payload offsets of which a decode reads all eight bits. -/
def wholeOffsets : List Nat :=
  [1, 2, 3, 4, 5, 6, 8, 9] ++ (List.range 12).map (· + 16) ++ (List.range 8).map (· + 33) ++ [53]

/-- The fields follow from the length, the bytes read whole, and bits 2 to 0 of byte 10. -/
theorem fieldsOf_congr {P P' : List Byte} (hlen : P.length = P'.length)
    (hwhole : ∀ i ∈ wholeOffsets, byteAt P i = byteAt P' i)
    (hbits : ∀ i < 3, (byteAt P 10).getLsbD i = (byteAt P' 10).getLsbD i) : fieldsOf P = fieldsOf P' := by
  rw [fieldsOf, fieldsOf, hlen]
  simp (decide := true) only [touchSlotAt, hwhole, hbits, Nat.reduceAdd]

theorem getLsbD_eq_of_mod_eight {b b' : Byte} (h : b.toNat % 8 = b'.toNat % 8) {i : Nat} (hi : i < 3) :
    b.getLsbD i = b'.getLsbD i := by
  have hlow : ∀ c : Byte, (c.toNat % 2 ^ 3).testBit i = c.getLsbD i := fun c => by
    rw [Nat.testBit_mod_two_pow, decide_eq_true hi, Bool.true_and, BitVec.testBit_toNat]
  rw [← hlow b, ← hlow b']
  exact congrArg (·.testBit i) h

theorem lengthOk_congr {cfg : Config} {mode mode' : ConnMode} {P P' : List Byte} (hlen : P.length = P'.length)
    (hbat : batteryExposed cfg mode = batteryExposed cfg mode') : lengthOk cfg mode P = lengthOk cfg mode' P' := by
  rw [lengthOk, lengthOk, hlen, hbat]

/-- Two reports decode alike when their payloads agree as far as the length check and the fields go. -/
theorem decodeReport_congr {cfg : Config} {mode : ConnMode} {raw raw' : List Byte}
    (hlen : (payload mode raw).length = (payload mode raw').length)
    (hfields : lengthOk cfg mode (payload mode raw) = true →
      fieldsOf (payload mode raw) = fieldsOf (payload mode raw')) :
    decodeReport cfg mode raw = decodeReport cfg mode raw' := by
  unfold decodeReport
  rw [← lengthOk_congr hlen rfl]
  split
  · next hok => rw [hfields hok]
  · rfl

/-! ## The obligations -/

/-- Settles O27: the bias is subtracted on integers. -/
theorem decodedSticksAndTriggers : Obligations.DecodedSticksAndTriggers := by
  intro cfg mode raw cs h
  refine ⟨byteAt (payload mode raw), getElem?_of_decodeReport h, ?_⟩
  rw [decodeReport_eq_some h]
  exact ⟨biasedByte_toInt _, biasedByte_toInt _, biasedByte_toInt _, biasedByte_toInt _, rfl, rfl⟩

/-- Settles O28: every button is a bit of its byte, and every direction a set of D-pad codes. -/
theorem decodedButtonsAndDpad : Obligations.DecodedButtonsAndDpad := by
  intro cfg mode raw cs h
  refine ⟨byteAt (payload mode raw), getElem?_of_decodeReport h, ?_⟩
  rw [decodeReport_eq_some h]
  generalize payload mode raw = P
  have hbit := fun k => getLsbD_iff_div_mod (byteAt P k)
  have hlow := fun k => (hbit k 0).trans (by rw [pow_zero, Nat.div_one])
  exact ⟨hbit 8 7, hbit 8 6, hbit 8 5, hbit 8 4, hbit 9 7, hbit 9 6, hbit 9 5, hbit 9 4, hbit 9 3, hbit 9 2, hbit 9 1,
    hlow 9, hlow 10, hbit 10 1, hbit 10 2, direction_iff _ _, direction_iff _ _, direction_iff _ _, direction_iff _ _⟩

/-- Settles O29: each sensor value is `s16` of two neighbouring bytes. -/
theorem decodedSensorsAreSigned16 : Obligations.DecodedSensorsAreSigned16 := by
  intro cfg mode raw cs h
  refine ⟨byteAt (payload mode raw), getElem?_of_decodeReport h, fun v o hmem => ?_⟩
  rw [decodeReport_eq_some h] at hmem
  have hv : v = s16 (byteAt (payload mode raw) o) (byteAt (payload mode raw) (o + 1)) := by
    simp only [List.mem_cons, List.not_mem_nil, or_false, Prod.mk.injEq] at hmem
    obtain ⟨rfl, rfl⟩ | ⟨rfl, rfl⟩ | ⟨rfl, rfl⟩ | ⟨rfl, rfl⟩ | ⟨rfl, rfl⟩ | ⟨rfl, rfl⟩ := hmem <;> rfl
  rw [hv]
  exact s16_toInt _ _

/-- Settles O30: both slots are `touchSlotAt` of their first byte's offset. -/
theorem decodedTouchSlots : Obligations.DecodedTouchSlots := by
  intro cfg mode raw cs h
  refine ⟨byteAt (payload mode raw), getElem?_of_decodeReport h, fun slot o hmem => ?_⟩
  rw [decodeReport_eq_some h] at hmem
  have hslot : slot = touchSlotAt (payload mode raw) o := by
    simp only [List.mem_cons, List.not_mem_nil, or_false, Prod.mk.injEq] at hmem
    obtain ⟨rfl, rfl⟩ | ⟨rfl, rfl⟩ := hmem <;> rfl
  rw [hslot]
  exact ⟨touchSlotAt_id _ _, touchSlotAt_active _ _, touchSlotAt_x _ _, touchSlotAt_y _ _⟩

/-- Settles O31: the length check asks for byte 53 where the battery is exposed, and a payload with byte 53 gives a known
battery. -/
theorem decodedBattery : Obligations.DecodedBattery := by
  intro cfg mode raw cs h
  refine ⟨fun hexposed => ?_, fun b hb => ?_⟩
  · have hlen := (lengthOk_iff.mp (lengthOk_of_decodeReport h)).right hexposed
    exact ⟨_, (payload_getElem? mode raw 53).symm.trans (getElem?_eq_byteAt hlen)⟩
  · rw [← payload_getElem?] at hb
    obtain ⟨hlen, -⟩ := List.getElem?_eq_some_iff.mp hb
    rw [decodeReport_eq_some h, fieldsOf_bat hlen, byteAt_of_getElem? hb]
    exact ⟨rfl, batteryOf_state_toNat b, batteryOf_level_toNat b⟩

/-- Settles O32: the length check sees the length only, and the fields only the bytes listed. -/
theorem uninterpretedBytesDoNotMatter : Obligations.UninterpretedBytesDoNotMatter := by
  intro cfg mode raw raw' hlen hwhole hten
  have hplen : (payload mode raw).length = (payload mode raw').length := by rw [payload_length, payload_length, hlen]
  refine decodeReport_congr hplen fun hok => fieldsOf_congr hplen (fun i hi => ?_) fun i hi => ?_
  · rw [byteAt_eq, byteAt_eq, payload_getElem?, payload_getElem?, hwhole i hi]
  · obtain ⟨hmin, -⟩ := lengthOk_iff.mp hok
    refine getLsbD_eq_of_mod_eight (hten _ _ ?_ ?_) hi
    · rw [← payload_getElem?, getElem?_eq_byteAt (by omega)]
    · rw [← payload_getElem?, getElem?_eq_byteAt (by omega)]

/-- Settles O33: the payload of the prefixed report is the USB payload, and the empty report has none. -/
theorem bluetoothReportIsPrefixAndPayload : Obligations.BluetoothReportIsPrefixAndPayload := by
  intro cfg b raw hbat
  have hpayload : payload .bt (b :: raw) = payload .usb raw := rfl
  have hok : ∀ P, lengthOk cfg .bt P = lengthOk cfg .usb P := fun P => lengthOk_congr rfl hbat
  refine ⟨?_, rfl⟩
  rw [decodeReport, decodeReport, hpayload, hok]

end Sys2Proof.Machine
end

section
/-! PROOFS. The checksum (spec/41_checksum.md): the register's step is linear over exclusive or and, with bit 31 in the
polynomial's numeral, injective; from the first follows the table form (R174), from both that every byte counts (R173). -/

namespace Sys2Proof.Machine

/-- Two bits shifted out feed the polynomial back each for itself. -/
theorem feedback_xor (q : BitVec 32) (a b : Bool) :
    (if (a ^^ b) = true then q else 0#32) = (if a = true then q else 0#32) ^^^ (if b = true then q else 0#32) := by
  cases a <;> cases b <;> simp

section Reflected
variable {p : CrcParams} (hr : p.reflected = true)
include hr

/-! ## The register's step is linear -/

/-- The register shifts right, and the bit shifted out feeds the polynomial back. -/
theorem crcBit_of_reflected (c : BitVec 32) :
    crcBit p c = (c >>> 1) ^^^ (if c.getLsbD 0 = true then p.poly else 0#32) := by
  rw [crcBit, if_pos hr]
  split
  · rfl
  · exact BitVec.xor_zero.symm

theorem crcBit_xor (x y : BitVec 32) : crcBit p (x ^^^ y) = crcBit p x ^^^ crcBit p y := by
  simp only [crcBit_of_reflected hr, BitVec.getLsbD_xor, BitVec.ushiftRight_xor_distrib, feedback_xor]
  ac_rfl

theorem crcBits_xor (n : Nat) (x y : BitVec 32) : crcBits p n (x ^^^ y) = crcBits p n x ^^^ crcBits p n y := by
  induction n generalizing x y with
  | zero => rfl
  | succ n ih => rw [crcBits_succ, crcBits_succ, crcBits_succ, crcBit_xor hr, ih]

theorem crcByte_of_reflected (c : BitVec 32) (b : Byte) : crcByte p c b = crcBits p 8 (c ^^^ b.setWidth 32) := by
  rw [crcByte, if_pos hr]

/-! ## Clear bits shift out -/

theorem crcBit_of_low_clear {x : BitVec 32} (h : x.getLsbD 0 = false) : crcBit p x = x >>> 1 := by
  rw [crcBit_of_reflected hr, h, if_neg Bool.false_ne_true, BitVec.xor_zero]

theorem crcBits_of_low_clear (n : Nat) {x : BitVec 32} (h : ∀ i, i < n → x.getLsbD i = false) :
    crcBits p n x = x >>> n := by
  induction n generalizing x with
  | zero => simp
  | succ n ih =>
    have hshifted : ∀ i, i < n → (x >>> 1).getLsbD i = false := by
      intro i hi
      rw [BitVec.getLsbD_ushiftRight]
      exact h (1 + i) (by omega)
    rw [crcBits_succ, crcBit_of_low_clear hr (h 0 n.succ_pos), ih hshifted, ← BitVec.shiftRight_add, Nat.add_comm]

/-! ## The register and the byte can be read off the result -/

variable (hp : p.poly.getLsbD 31 = true)
include hp

/-- With bit 31 in the polynomial, the bit shifted out can be read off the result. -/
theorem eq_zero_of_crcBit_eq_zero {x : BitVec 32} (h : crcBit p x = 0#32) : x = 0#32 := by
  cases hlow : x.getLsbD 0 with
  | true =>
    have htop : (crcBit p x).getLsbD 31 = true := by
      rw [crcBit_of_reflected hr, if_pos hlow, BitVec.getLsbD_xor, BitVec.getLsbD_ushiftRight, hp,
        BitVec.getLsbD_of_ge x _ (by decide), Bool.false_xor]
    rw [h] at htop
    cases htop
  | false =>
    rw [crcBit_of_low_clear hr hlow] at h
    refine BitVec.eq_of_getLsbD_eq fun i _ => ?_
    cases i with
    | zero => exact hlow
    | succ i =>
      have hbit : (x >>> 1).getLsbD i = (0#32).getLsbD i := by rw [h]
      simpa [Nat.add_comm] using hbit

theorem crcBits_injective (n : Nat) : Function.Injective (crcBits p n) := by
  induction n with
  | zero => exact Function.injective_id
  | succ n ih =>
    intro x y h
    rw [crcBits_succ, crcBits_succ] at h
    have hzero : crcBit p (x ^^^ y) = 0#32 := by rw [crcBit_xor hr, ih h, BitVec.xor_self]
    exact BitVec.xor_eq_zero_iff.mp (eq_zero_of_crcBit_eq_zero hr hp hzero)

theorem crcByte_register_injective (b : Byte) : Function.Injective fun c => crcByte p c b := by
  intro c c' h
  simp only [crcByte_of_reflected hr] at h
  exact (BitVec.xor_left_inj _).mp (crcBits_injective hr hp 8 h)

theorem crcByte_byte_injective (c : BitVec 32) : Function.Injective (crcByte p c) := by
  intro b b' h
  rw [crcByte_of_reflected hr, crcByte_of_reflected hr] at h
  have hwide : b.setWidth 32 = b'.setWidth 32 := (BitVec.xor_right_inj c).mp (crcBits_injective hr hp 8 h)
  simpa using congrArg (BitVec.setWidth 8) hwide

theorem crcBytes_register_injective (B : List Byte) : Function.Injective (crcBytes p B) := by
  induction B with
  | nil => exact Function.injective_id
  | cons b bs ih =>
    intro c c' h
    rw [crcBytes_cons, crcBytes_cons] at h
    exact crcByte_register_injective hr hp b (ih h)

end Reflected

/-! ## Every byte counts, and the table form -/

/-- Settles O45: equal results give equal registers after the byte, and from there equal bytes. -/
theorem checksumChangesWithAnySingleByte : Obligations.ChecksumChangesWithAnySingleByte := by
  intro p B B' b b' hr hp hne heq
  have hregisters := (BitVec.xor_left_inj _).mp heq
  rw [crcBytes_append, crcBytes_append, crcBytes_cons, crcBytes_cons] at hregisters
  exact hne (crcByte_byte_injective hr hp _ (crcBytes_register_injective hr hp B' hregisters))

/-- A register is its low byte and the rest, and a byte combined into it does not reach the rest. -/
theorem low_byte_xor_rest (c : BitVec 32) (b : Byte) :
    c ^^^ b.setWidth 32 = ((c ^^^ b.setWidth 32) &&& 0xFF#32) ^^^ (c >>> 8 <<< 8) := by
  refine BitVec.eq_of_getLsbD_eq fun i hi => ?_
  have hmask : (0xFF#32).getLsbD i = decide (i < 8) := by
    change ((BitVec.allOnes 8).setWidth 32).getLsbD i = _
    rw [BitVec.getLsbD_setWidth, BitVec.getLsbD_allOnes, decide_eq_true hi, Bool.true_and]
  rw [BitVec.getLsbD_xor, BitVec.getLsbD_xor, BitVec.getLsbD_and, hmask]
  by_cases hlow : i < 8
  · simp [hi, hlow]
  · have hbyte : b.getLsbD i = false := BitVec.getLsbD_of_ge b i (by omega)
    simp [hi, hlow, hbyte, show 8 + (i - 8) = i by omega]

/-- Settles O46: the table maps the low byte, and the rest only shifts. -/
theorem checksumTableFormIsTheSameFunction : Obligations.ChecksumTableFormIsTheSameFunction := by
  intro p c b hr
  have hclear : ∀ i, i < 8 → (c >>> 8 <<< 8).getLsbD i = false := fun i hi => by simp [hi]
  have hback : c >>> 8 <<< 8 >>> 8 = c >>> 8 := by
    refine BitVec.eq_of_getLsbD_eq fun i hi => ?_
    simpa [hi] using BitVec.lt_of_getLsbD
  calc crcByte p c b
      = crcBits p 8 (c ^^^ b.setWidth 32) := crcByte_of_reflected hr c b
    _ = crcBits p 8 (((c ^^^ b.setWidth 32) &&& 0xFF#32) ^^^ (c >>> 8 <<< 8)) := by rw [← low_byte_xor_rest]
    _ = crcBits p 8 ((c ^^^ b.setWidth 32) &&& 0xFF#32) ^^^ (c >>> 8) := by
      rw [crcBits_xor hr, crcBits_of_low_clear hr 8 hclear, hback]

/-! ## The default seed -/

/-- The seed enters the register at the start only. -/
theorem crcBits_seed (p : CrcParams) (seed : BitVec 32) (n : Nat) (c : BitVec 32) :
    crcBits { p with seed := seed } n c = crcBits p n c := by
  induction n generalizing c with
  | zero => rfl
  | succ n ih => rw [crcBits_succ, crcBits_succ, ih]; rfl

theorem crcByte_seed (p : CrcParams) (seed c : BitVec 32) (b : Byte) :
    crcByte { p with seed := seed } c b = crcByte p c b := crcBits_seed p seed 8 _

theorem crcBytes_seed (p : CrcParams) (seed c : BitVec 32) (B : List Byte) :
    crcBytes { p with seed := seed } B c = crcBytes p B c := by
  induction B generalizing c with
  | nil => rfl
  | cons b bs ih => rw [crcBytes_cons, crcBytes_cons, crcByte_seed, ih]

theorem crc32_seed (p : CrcParams) (seed : BitVec 32) (B : List Byte) :
    crc32 { p with seed := seed } B = crcBytes p B (seed ^^^ crcMask p.complementIn) ^^^ crcMask p.complementOut :=
  congrArg (· ^^^ crcMask p.complementOut) (crcBytes_seed p seed _ B)

theorem crcByte_default_A2 :
    crcByte defaultCrc (0#32 ^^^ crcMask defaultCrc.complementIn) 0xA2#8
      = defaultCrc.seed ^^^ crcMask defaultCrc.complementIn := by decide

/-- Settles O47: the byte 0xA2 takes the plain register to the default seed's, and two equal complements cancel. -/
theorem defaultChecksumIsPlainCrcAfterA2 : Obligations.DefaultChecksumIsPlainCrcAfterA2 := by
  refine ⟨fun B => ?seed, fun p hmask => ?empty⟩
  case seed =>
    rw [crc32_seed defaultCrc 0#32, crcBytes_cons, crcByte_default_A2, crc32]
  case empty =>
    rw [crc32, crcBytes_nil, hmask, BitVec.xor_assoc, BitVec.xor_self, BitVec.xor_zero]

/-! ## CRC32 as ENCODE calls it -/

theorem execCrc32_of_read {s : State} {B : List Byte} (h : Memory.readRange s.outbuf 0 s.cfg.crc.cover = .ok B) :
    execCrc32 s = .next { s with enc := .crcReturned (crc32 s.cfg.crc B) } := by
  simp [execCrc32, h]

/-- Settles O39: the bytes are there, so the read of the covered range succeeds. -/
theorem crcReturnsTheChecksumAndWritesNothing : Obligations.CrcReturnsTheChecksumAndWritesNothing := by
  intro s hlisted hcover
  obtain ⟨B, hB⟩ := readRange_of_listed hlisted hcover
  obtain ⟨hlen, hbytes⟩ := readRange_eq_ok.mp hB
  refine ⟨B, hlen, fun i hi => ?_, execCrc32_of_read hB⟩
  simpa using (hbytes i hi).right

end Sys2Proof.Machine
end

section
/-! PROOFS. The report of ENCODE as a pure function (spec/42_encoder.md): every field at its offset, and the two reports of one
PendingOutput against each other. -/

namespace Sys2Proof.Machine

/-! ## The assigned bytes -/

/-- The seventh force of each trigger lies two bytes behind the sixth (spec/30_encoding.md R103). -/
theorem outMapOk_force6 {M : OutMap} (h : outMapOk M = true) :
    M.trigRForce6 = M.trigRForce0 + 8 ∧ M.trigLForce6 = M.trigLForce0 + 8 := by
  simp only [outMapOk, Bool.and_eq_true, decide_eq_true_eq] at h
  obtain ⟨⟨⟨-, hR⟩, hL⟩, -⟩ := h
  exact ⟨hR, hL⟩

/-- The assigned bytes lie before the checksum, so it overwrites none of them. -/
theorem encodeReport_assigned {cfg : Config} (h : outMapOk cfg.outMap = true) {mode : ConnMode} {po : PendingOutput}
    {k : Nat} {v : Byte} (hm : (k, v) ∈ assignedBytes cfg mode po) : (encodeReport cfg mode po)[k]? = some v := by
  have hk : k < 65 := (assignedBytes_bound h mode po hm).1
  rw [encodeReport_getElem?_body cfg mode po fun _ => by simp only [crcTail]; omega]
  exact reportBody_assigned h hm

theorem encodeReport_marker {cfg : Config} (h : outMapOk cfg.outMap = true) {mode : ConnMode} (po : PendingOutput)
    {k : Nat} {v : Byte} (hm : (k, v) ∈ markerBytes cfg mode) : (encodeReport cfg mode po)[k]? = some v :=
  encodeReport_assigned h (List.mem_append_left _ hm)

theorem encodeReport_field {cfg : Config} (h : outMapOk cfg.outMap = true) (mode : ConnMode) {po : PendingOutput}
    {k : Nat} {v : Byte} (hm : (k, v) ∈ fieldBytes cfg.outMap po) :
    (encodeReport cfg mode po)[k + outShift mode]? = some v :=
  encodeReport_assigned h (List.mem_append_right _ (List.mem_map.mpr ⟨(k, v), hm, rfl⟩))

/-- Settles O41: with the seventh forces where R103 puts them, the listed bytes are those ENCODE assigns. -/
theorem reportCarriesEveryFieldAtItsOffset : Obligations.ReportCarriesEveryFieldAtItsOffset := by
  intro cfg mode po h
  refine ⟨encodeReport_length cfg mode po, ?marker, ?byte1, fun k v hlisted => ?field⟩
  case marker =>
    cases mode with
    | usb => exact encodeReport_marker h po (List.mem_singleton.mpr rfl)
    | bt => exact encodeReport_marker h po List.mem_cons_self
  case byte1 =>
    rintro rfl
    exact encodeReport_marker h po (List.mem_cons_of_mem _ List.mem_cons_self)
  case field =>
    obtain ⟨hR, hL⟩ := outMapOk_force6 h
    apply encodeReport_field h mode
    rw [fieldBytes, hR, hL]
    exact hlisted

/-! ## The two reports of one PendingOutput -/

/-- A byte after the marker is that of the field there, or zero in both modes. -/
theorem encodeReport_shifted {cfg : Config} (h : outMapOk cfg.outMap = true) (po : PendingOutput) {k : Nat}
    (hpos : 1 ≤ k) (hlen : k ≤ 63) : (encodeReport cfg .bt po)[k + 1]? = (encodeReport cfg .usb po)[k]? := by
  by_cases hfield : k ∈ outMapOffsets cfg.outMap
  · rw [← fieldBytes_offsets cfg.outMap po] at hfield
    obtain ⟨⟨_, v⟩, hm, rfl⟩ := List.mem_map.mp hfield
    exact (encodeReport_field h .bt hm).trans (encodeReport_field h .usb hm).symm
  · have hother : ∀ j ∈ outMapOffsets cfg.outMap, k ≠ j := fun j hj hkj => hfield (hkj ▸ hj)
    rw [encodeReport_unassigned cfg .bt po (by simp only [outLen]; omega) (by omega)
        (fun _ => ⟨by omega, by simp only [crcTail]; omega⟩) (fun j hj hkj => hother j hj (Nat.succ.inj hkj)),
      encodeReport_unassigned cfg .usb po (by simp only [outLen]; omega) (by omega) nofun hother]

/-- Behind the last field and before the checksum a Bluetooth report is zero. -/
theorem encodeReport_bt_zero {cfg : Config} (h : outMapOk cfg.outMap = true) (po : PendingOutput) {k : Nat}
    (hlo : 65 ≤ k) (hhi : k ≤ 73) : (encodeReport cfg .bt po)[k]? = some 0#8 := by
  refine encodeReport_unassigned cfg .bt po (by simp only [outLen]; omega) (by omega)
    (fun _ => ⟨by omega, by simp only [crcTail]; omega⟩) fun j hj => ?_
  have := (outMapOk_bounds h hj).2
  simp only [outShift]
  omega

theorem reportBody_bt_take_length (cfg : Config) (po : PendingOutput) :
    ((reportBody cfg .bt po).take crcTail).length = crcTail := by
  simp [outLen, crcTail]

/-- The last four bytes are the checksum of the bytes before them, where those are what it covers. -/
theorem encodeReport_bt_tail {cfg : Config} (po : PendingOutput) (hcover : cfg.crc.cover = crcTail) :
    (encodeReport cfg .bt po).drop crcTail
      = littleEndian4 (crc32 cfg.crc ((encodeReport cfg .bt po).take crcTail)) := by
  simp only [encodeReport, hcover]
  rw [List.drop_left' (reportBody_bt_take_length cfg po), List.take_left' (reportBody_bt_take_length cfg po)]

/-- Settles O43: field by field, and with BT_BYTE1 the USB marker the shift starts at byte 0. -/
theorem bluetoothReportIsTheUsbReportShifted : Obligations.BluetoothReportIsTheUsbReportShifted := by
  intro cfg po h hcover
  have hbyte1 : (encodeReport cfg .bt po)[1]? = some cfg.btByte1 :=
    encodeReport_marker h po (List.mem_cons_of_mem _ List.mem_cons_self)
  refine ⟨_, _, rfl, rfl, encodeReport_marker h po List.mem_cons_self, hbyte1, fun k => encodeReport_shifted h po,
    fun k => encodeReport_bt_zero h po, encodeReport_bt_tail po hcover, fun hmarker k hk => ?_⟩
  cases k with
  | zero =>
    rw [hmarker] at hbyte1
    exact hbyte1.trans (encodeReport_marker h po (List.mem_singleton.mpr rfl)).symm
  | succ k => exact encodeReport_shifted h po (by omega) hk

end Sys2Proof.Machine
end

section
/-! PROOFS. ENCODE as the worker runs it (spec/42_encoder.md R180, R190): its fields, the checksum tail, and the whole. -/

namespace Sys2Proof.Machine

/-! ## The two steps of ENCODE -/

theorem encodeFields_usb {s : State} (hmode : s.mode = .usb) :
    s.encodeFields = { s with outbuf := Memory.writeBytes s.outbuf 0 (reportBody s.cfg .usb s.snapshot)
                              latched := [], latch := PendingOutput.zero, enc := .start, phase := .write } := by
  simp only [State.encodeFields, hmode]

theorem encodeFields_bt {s : State} (hmode : s.mode = .bt) :
    s.encodeFields = { s with outbuf := Memory.writeBytes s.outbuf 0 (reportBody s.cfg .bt s.snapshot)
                              latched := [], latch := PendingOutput.zero, enc := .crcCalled, phase := .encode } := by
  simp only [State.encodeFields, hmode]

/-- All that ENCODE's fields change, in both modes. -/
theorem encodeFields_eq (s : State) :
    s.encodeFields = { s with outbuf := Memory.writeBytes s.outbuf 0 (reportBody s.cfg s.mode s.snapshot)
                              latched := [], latch := PendingOutput.zero
                              phase := if s.mode = .usb then .write else .encode
                              enc := if s.mode = .usb then .start else .crcCalled } := by
  cases hmode : s.mode with
  | usb => rw [encodeFields_usb hmode]; simp [hmode]
  | bt => rw [encodeFields_bt hmode]; simp [hmode]

/-- Resumed with the result of CRC32, ENCODE writes the checksum tail and is finished. -/
theorem exec_encode_resumed {s : State} {crc : BitVec 32} (henc : s.enc = .crcReturned crc) :
    exec .encode s = .next { s with outbuf := Memory.writeBytes s.outbuf crcTail (littleEndian4 crc)
                                    enc := .start, phase := .write } := by
  simp only [exec, execEncode, henc]

/-- Under the constraints on `OUTMAP` an ENCODE that does not wait for a result writes its fields. -/
theorem exec_encode_begun {s : State} (hmap : outMapOk s.cfg.outMap = true) (henc : ∀ c, s.enc ≠ .crcReturned c) :
    exec .encode s = .next s.encodeFields := by
  have hinside := offsetOutside_none hmap s.mode s.snapshot
  cases hstage : s.enc with
  | crcReturned c => exact absurd hstage (henc c)
  | start | crcCalled => simp only [exec, execEncode, hstage, hinside]

/-- A read after a write at the head of a buffer. -/
theorem read_writeBytes_head (m : Memory) {bs : List Byte} {k : Nat} (hk : k < bs.length) :
    Memory.read (Memory.writeBytes m 0 bs) k = bs[k]? := by
  rw [read_writeBytes, if_pos ⟨k.zero_le, by omega⟩, Nat.sub_zero]

/-- Settles O37: the body is as long as the report, and is written at its head. -/
theorem encodeWritesItsFields : Obligations.EncodeWritesItsFields := by
  intro s hmap henc
  refine ⟨_, exec_encode_begun hmap henc, ?_, fun k hk => ?_, fun k hk => ?_⟩
  · rw [encodeFields_eq]
  · rw [encodeFields_outbuf, read_writeBytes_head _ (by simpa using hk)]
  · rw [encodeFields_outbuf, read_writeBytes_outside _ _ _ _ (.inr (by simpa using hk))]

/-- The four bytes of a word are its digits to the base 256, least significant first. -/
theorem toNat_eq_bytes (v : BitVec 32) :
    v.toNat = (v.extractLsb' 0 8).toNat + 256 * (v.extractLsb' 8 8).toNat + 65536 * (v.extractLsb' 16 8).toNat
      + 16777216 * (v.extractLsb' 24 8).toNat := by
  have := v.isLt
  simp only [BitVec.extractLsb'_toNat, Nat.shiftRight_eq_div_pow]
  omega

/-- Settles O38: the four bytes of the result are written at 74 and nowhere else. -/
theorem encodeWritesTheChecksumTail : Obligations.EncodeWritesTheChecksumTail := by
  intro s crc henc
  have hbyte := read_writeBytes_inside s.outbuf crcTail (littleEndian4 crc)
  refine ⟨_, exec_encode_resumed henc, rfl, ⟨_, _, _, _, hbyte 0 (by simp), hbyte 1 (by simp), hbyte 2 (by simp),
    hbyte 3 (by simp), toNat_eq_bytes crc⟩, fun k hk => ?_⟩
  exact read_writeBytes_outside _ _ _ _ (by simpa [crcTail] using hk)

/-! ## OUTBUF after both writes -/

/-- A second write up to the end of the first leaves what one write of the joined bytes leaves. -/
theorem read_writeBytes_tail (m : Memory) {bs tail : List Byte} {a : Nat} (hend : a + tail.length = bs.length) (k : Nat) :
    Memory.read (Memory.writeBytes (Memory.writeBytes m 0 bs) a tail) k
      = Memory.read (Memory.writeBytes m 0 (bs.take a ++ tail)) k := by
  have hhead : (bs.take a).length = a := by simp; omega
  have hlen : (bs.take a ++ tail).length = bs.length := by rw [List.length_append, hhead, hend]
  by_cases hk : k < bs.length
  · rw [read_writeBytes_head m (by omega), read_writeBytes]
    by_cases ha : a ≤ k
    · rw [if_pos ⟨ha, by omega⟩, List.getElem?_append_right (by omega), hhead]
    · rw [if_neg (by omega), read_writeBytes_head m hk, List.getElem?_append_left (by omega),
        List.getElem?_take_of_lt (by omega)]
  · rw [read_writeBytes_outside _ _ _ _ (.inr (by omega)), read_writeBytes_outside _ _ _ _ (.inr (by omega)),
      read_writeBytes_outside _ _ _ _ (.inr (by omega))]

/-- CRC32 reads the head of what has been written. -/
theorem readRange_writeBytes_take (m : Memory) {bs : List Byte} {n : Nat} (hn : n ≤ bs.length)
    (hb : bs.length ≤ bufferSize) : Memory.readRange (Memory.writeBytes m 0 bs) 0 n = .ok (bs.take n) := by
  refine readRange_eq_ok.mpr ⟨by simpa using hn, fun i hi => ⟨by omega, ?_⟩⟩
  rw [Nat.zero_add, read_writeBytes_head m (by omega), List.getElem?_take_of_lt hi]

/-- The buffer holds `report` in its first bytes and is `m` elsewhere. -/
def HoldsReport (m : Memory) (report : List Byte) (m' : Memory) : Prop :=
  ∀ k, Memory.read m' k = Memory.read (Memory.writeBytes m 0 report) k

theorem HoldsReport.readRange {m m' : Memory} {report : List Byte} (h : HoldsReport m report m')
    (hb : report.length ≤ bufferSize) : Memory.readRange m' 0 report.length = .ok report := by
  refine readRange_eq_ok.mpr ⟨rfl, fun i hi => ⟨by omega, ?_⟩⟩
  rw [h, Nat.zero_add, read_writeBytes_head m hi]

theorem HoldsReport.outside {m m' : Memory} {report : List Byte} (h : HoldsReport m report m') {k : Nat}
    (hk : report.length ≤ k) : Memory.read m' k = Memory.read m k := by
  rw [h, read_writeBytes_outside _ _ _ _ (.inr (by omega))]

/-! ## A whole ENCODE -/

/-- The worker is at ENCODE, in one of ENCODE's own steps. -/
theorem step_encode {s : State} {ts : List Turn} (hturns : s.turns = .worker :: ts) (hrun : s.run = .running)
    (hphase : s.phase = .encode) (henc : s.enc ≠ .crcCalled) : step s = exec .encode { s with turns := ts } := by
  have hsel : s.selector = some (.seq (phaseCode .encode)) := by simp [State.selector, hrun, hphase, henc]
  exact step_selected hturns hsel rfl

/-- ENCODE has called CRC32 and the worker performs it. -/
theorem step_crc32 {s : State} {ts : List Turn} (hturns : s.turns = .worker :: ts) (hrun : s.run = .running)
    (hphase : s.phase = .encode) (henc : s.enc = .crcCalled) (hmode : s.mode = .bt) :
    step s = exec .crc32 { s with turns := ts } := by
  have hsel : s.selector = some (.sub (modeCode .bt ++ phaseCode .encode)) := by
    simp [State.selector, hrun, hphase, henc, hmode]
  exact step_selected hturns hsel rfl

theorem step_encode_begun {s : State} {ts : List Turn} (hmap : outMapOk s.cfg.outMap = true) (hrun : s.run = .running)
    (hphase : s.phase = .encode) (henc : s.enc = .start) (hturns : s.turns = .worker :: ts) :
    step s = .next ({ s with turns := ts } : State).encodeFields :=
  (step_encode hturns hrun hphase (by rw [henc]; nofun)).trans
    (exec_encode_begun (s := { s with turns := ts }) hmap fun c => by rw [henc]; nofun)

/-- What a whole ENCODE makes of a state, given what it makes of OUTBUF. -/
def State.encoded (s : State) (ts : List Turn) (outbuf : Memory) : State :=
  { s with turns := ts, outbuf := outbuf, enc := .start, latched := [], latch := PendingOutput.zero, phase := .write }

/-- Over USB the fields are the whole report. -/
theorem run_encode_usb {s : State} {ts : List Turn} (hmap : outMapOk s.cfg.outMap = true) (hrun : s.run = .running)
    (hphase : s.phase = .encode) (henc : s.enc = .start) (hmode : s.mode = .usb) (hturns : s.turns = .worker :: ts) :
    ∃ m, Host.Core.run Sys2Proof.core 1 s = .next (s.encoded ts m)
      ∧ HoldsReport s.outbuf (encodeReport s.cfg .usb s.snapshot) m := by
  refine ⟨Memory.writeBytes s.outbuf 0 (reportBody s.cfg .usb s.snapshot), ?_, fun k => rfl⟩
  rw [run_succ_of_step 0 (step_encode_begun hmap hrun hphase henc hturns),
    encodeFields_usb (s := { s with turns := ts }) hmode]
  rfl

/-- CRC32, called, computes the checksum and ENCODE stores it. -/
theorem run_checksum {s : State} {ts : List Turn} {B : List Byte} (hturns : s.turns = .worker :: .worker :: ts)
    (hrun : s.run = .running) (hphase : s.phase = .encode) (henc : s.enc = .crcCalled) (hmode : s.mode = .bt)
    (hB : Memory.readRange s.outbuf 0 s.cfg.crc.cover = .ok B) :
    Host.Core.run Sys2Proof.core 2 s = .next
      ({ s with turns := ts, outbuf := Memory.writeBytes s.outbuf crcTail (littleEndian4 (crc32 s.cfg.crc B))
                enc := .start, phase := .write } : State) := by
  have hcrc : step s = .next { s with turns := .worker :: ts, enc := .crcReturned (crc32 s.cfg.crc B) } :=
    (step_crc32 hturns hrun hphase henc hmode).trans (execCrc32_of_read (s := { s with turns := .worker :: ts }) hB)
  have htail := (step_encode (s := { s with turns := .worker :: ts, enc := .crcReturned (crc32 s.cfg.crc B) })
    rfl hrun hphase nofun).trans (exec_encode_resumed rfl)
  exact (run_succ_of_step 1 hcrc).trans (run_succ_of_step 0 htail)

/-- Over Bluetooth ENCODE writes the fields, CRC32 reads the covered bytes just written, and ENCODE writes the tail. -/
theorem run_encode_bt {s : State} {ts : List Turn} (hmap : outMapOk s.cfg.outMap = true) (hcover : s.cfg.crc.cover ≤ 78)
    (hrun : s.run = .running) (hphase : s.phase = .encode) (henc : s.enc = .start) (hmode : s.mode = .bt)
    (hturns : s.turns = .worker :: .worker :: .worker :: ts) :
    ∃ m, Host.Core.run Sys2Proof.core 3 s = .next (s.encoded ts m)
      ∧ HoldsReport s.outbuf (encodeReport s.cfg .bt s.snapshot) m := by
  have hfields := step_encode_begun hmap hrun hphase henc hturns
  rw [encodeFields_bt (s := { s with turns := .worker :: .worker :: ts }) hmode] at hfields
  have hcovered := readRange_writeBytes_take s.outbuf (bs := reportBody s.cfg .bt s.snapshot) (n := s.cfg.crc.cover)
    (by simpa [outLen] using hcover) (by simp [outLen, bufferSize])
  refine ⟨_, (run_succ_of_step 2 hfields).trans (run_checksum rfl hrun rfl rfl hmode hcovered), ?_⟩
  exact read_writeBytes_tail s.outbuf (by simp [outLen, crcTail])

/-- Settles O40, by mode. -/
theorem wholeEncodeLeavesTheReportInOutbuf : Obligations.WholeEncodeLeavesTheReportInOutbuf := by
  intro s ts n hmap hcover hrun hphase henc hn hturns
  have hwhole : ∃ m, Host.Core.run Sys2Proof.core n s = .next (s.encoded ts m)
      ∧ HoldsReport s.outbuf (encodeReport s.cfg s.mode s.snapshot) m := by
    subst hn
    cases hmode : s.mode with
    | usb => exact run_encode_usb hmap hrun hphase henc hmode (by simpa [hmode] using hturns)
    | bt => exact run_encode_bt hmap hcover hrun hphase henc hmode (by simpa [hmode] using hturns)
  obtain ⟨m, hresult, hreport⟩ := hwhole
  refine ⟨_, hresult, ?_, ?_, fun k hk => ?_⟩
  · rw [State.encoded, ← henc]
  · have hread := hreport.readRange (by simpa using outLen_le_bufferSize s.mode)
    rwa [encodeReport_length] at hread
  · exact hreport.outside (by simpa using hk)

end Sys2Proof.Machine
end

section
/-! PROOFS. The ten setters of PO (spec/43_setters.md): what their checks let pass, what each writes, and their frame. -/

namespace Sys2Proof.Machine

/-! ## Checks passed, checks failed (R210) -/

section
variable {s : State} {b : Bool} {g : PendingOutput → PendingOutput}

/-- A setter whose checks pass writes and answers OK. -/
theorem next_setter_accepted (h : b = true) :
    (.next (s.setter b g) : Answer) = .next { s with po := g s.po, resps := .ok :: s.resps } := by
  obtain ⟨-, heq⟩ | ⟨hb, -⟩ := setter_cases s b g
  · rw [heq]
  · exact absurd (h.symm.trans hb) nofun

/-- A setter whose checks fail writes nothing and answers DomainRangeError. -/
theorem next_setter_rejected (h : b = false) :
    (.next (s.setter b g) : Answer) = .next { s with resps := .error .domainRange :: s.resps } := by
  obtain ⟨hb, -⟩ | ⟨-, heq⟩ := setter_cases s b g
  · exact absurd (h.symm.trans hb) nofun
  · rw [heq]

end

/-! ## The checks (R211, R213, R214, R220) -/

theorem inByte_of_range {v : Int} (h : 0 ≤ v ∧ v ≤ 255) : inByte v = true := decide_eq_true h

theorem inByte_of_outside {v : Int} (h : v < 0 ∨ 255 < v) : inByte v = false := decide_eq_false (by omega)

/-- The byte stored for an operand in range is the operand. -/
theorem toNat_byteOf {v : Int} (h : 0 ≤ v ∧ v ≤ 255) : ((byteOf v).toNat : Int) = v := by
  rw [byteOf, BitVec.toNat_ofInt]
  omega

/-- The check of SETFORCE fails on a bad slot and on a bad value. -/
theorem forceCheck_of_outside {k v : Int} (h : k < 0 ∨ 6 < k ∨ v < 0 ∨ 255 < v) : (inSlot k && inByte v) = false := by
  simp only [inSlot, inByte, ← Bool.decide_and, decide_eq_false_iff_not]
  omega

/-- The check of SETRGB fails on any one bad channel. -/
theorem rgbCheck_of_outside {r g b : Int} (h : r < 0 ∨ 255 < r ∨ g < 0 ∨ 255 < g ∨ b < 0 ∨ 255 < b) :
    (inByte r && inByte g && inByte b) = false := by
  simp only [inByte, ← Bool.decide_and, decide_eq_false_iff_not]
  omega

theorem rgbCheck_of_range {r g b : Int} (hr : 0 ≤ r ∧ r ≤ 255) (hg : 0 ≤ g ∧ g ≤ 255) (hb : 0 ≤ b ∧ b ≤ 255) :
    (inByte r && inByte g && inByte b) = true := by
  simp [inByte_of_range hr, inByte_of_range hg, inByte_of_range hb]

/-- The mode check is membership in the ten mode bytes (spec/30_encoding.md R108). -/
theorem isModeByte_iff {m : Int} :
    isModeByte m = true ↔ m ∈ ([0x00, 0x01, 0x02, 0x21, 0x05, 0x25, 0x22, 0x06, 0x26, 0xFC] : List Int) := by
  have hbytes : legalModes.map (fun b => (b.toNat : Int))
      = [0x00, 0x01, 0x02, 0x21, 0x05, 0x25, 0x22, 0x06, 0x26, 0xFC] := by decide
  rw [← hbytes]
  simp only [isModeByte, List.any_eq_true, decide_eq_true_eq, List.mem_map]

theorem modeBytes_in_range :
    ∀ m ∈ ([0x00, 0x01, 0x02, 0x21, 0x05, 0x25, 0x22, 0x06, 0x26, 0xFC] : List Int), 0 ≤ m ∧ m ≤ 255 := by decide

theorem isFlag_of_outside {v : Int} (h0 : v ≠ 0) (h1 : v ≠ 1) : isFlag v = false := decide_eq_false (by omega)

/-! ## The words of the setters with a selector (R111) -/

theorem decodeCommand_sides {w : Word} {f : Side → Instr} (h : decodeCommand w = (sideOfSel (selField w)).map f) :
    (selField w = 0#8 → decodeCommand w = .ok (f .left)) ∧ (selField w = 1#8 → decodeCommand w = .ok (f .right)) := by
  refine ⟨fun hsel => ?_, fun hsel => ?_⟩ <;>
  · rw [h, hsel]
    rfl

/-! ## Each setter -/

/-- Settles O11, by the check on the operand. -/
theorem setmotorWritesOneMotor : Obligations.SetmotorWritesOneMotor := by
  refine ⟨fun w hop => decodeCommand_sides (decodeCommand_setmotor hop), fun s v => ⟨fun hv => ?_, fun hv m => ?_⟩⟩
  · exact ⟨(accepted_setmotor .left hv).2 s, (accepted_setmotor .right hv).2 s, toNat_byteOf hv⟩
  · exact next_setter_rejected (inByte_of_outside hv)

/-- Settles O12: the mode check is membership in the list of the statement. -/
theorem setmodeAcceptsExactlyTheTenModes : Obligations.SetmodeAcceptsExactlyTheTenModes := by
  refine ⟨fun w hop => decodeCommand_sides (decodeCommand_setmode hop), fun s m => ⟨fun hm => ?_, fun hm t => ?_⟩⟩
  · exact ⟨(accepted_setmode .left hm).2 s, (accepted_setmode .right hm).2 s, toNat_byteOf (modeBytes_in_range m hm)⟩
  · exact next_setter_rejected (Bool.eq_false_iff.mpr (mt isModeByte_iff.mp hm))

/-- A slot below 7 is in bounds, so the write of SETFORCE takes place. -/
theorem setIfInBounds_slot (f : Vector Byte 7) (k : Fin 7) (b : Byte) : f.setIfInBounds k.val b = f.set k.val b k.isLt := by
  ext i hi
  simp [Vector.getElem_set, Vector.getElem_setIfInBounds]

/-- SETFORCE for a slot below 7 and a byte replaces that slot of that trigger's forces. -/
theorem exec_setforce_slot (s : State) (t : Side) (k : Fin 7) {v : Int} (hv : 0 ≤ v ∧ v ≤ 255) :
    exec (.setforce t k.val v) s = .next { s with
      po := s.po.setTrig t { s.po.trig t with force := (s.po.trig t).force.set k.val (byteOf v) k.isLt }
      resps := .ok :: s.resps } := by
  rw [(accepted_setforce t k.isLt hv).2 s, ← setIfInBounds_slot]
  rfl

/-- Settles O13, by the check on slot and value. -/
theorem setforceWritesOneSlot : Obligations.SetforceWritesOneSlot := by
  refine ⟨fun w hop => decodeCommand_sides (decodeCommand_setforce hop), fun s v => ⟨fun k hv => ?_, fun k t h => ?_⟩⟩
  · exact ⟨exec_setforce_slot s .left k hv, exec_setforce_slot s .right k hv, toNat_byteOf hv⟩
  · exact next_setter_rejected (forceCheck_of_outside h)

/-- Settles O14: the four setters share one check. -/
theorem lightSettersWriteTheirOneByte : Obligations.LightSettersWriteTheirOneByte := by
  refine ⟨fun w => ⟨decodeCommand_setled, decodeCommand_setpulse, decodeCommand_setbright, decodeCommand_setplayer⟩,
    fun s v => ⟨fun hv => ?_, fun hv => ?_⟩⟩
  · have hcheck := inByte_of_range hv
    exact ⟨next_setter_accepted hcheck, next_setter_accepted hcheck, next_setter_accepted hcheck,
      next_setter_accepted hcheck, toNat_byteOf hv⟩
  · have hcheck := inByte_of_outside hv
    exact ⟨next_setter_rejected hcheck, next_setter_rejected hcheck, next_setter_rejected hcheck,
      next_setter_rejected hcheck⟩

/-- Settles O15: one check covers the three channels, before the one write of the colour. -/
theorem setrgbWritesAllChannelsOrNone : Obligations.SetrgbWritesAllChannelsOrNone :=
  ⟨fun _ => decodeCommand_setrgb, fun _ _ _ _ =>
    ⟨fun hr hg hb => next_setter_accepted (rgbCheck_of_range hr hg hb),
      fun h => next_setter_rejected (rgbCheck_of_outside h)⟩⟩

/-- Settles O16: the two setters share one check, which 0 and 1 pass. -/
theorem microphoneSettersWriteTheirFlag : Obligations.MicrophoneSettersWriteTheirFlag := by
  refine ⟨fun w => ⟨decodeCommand_setmicled, decodeCommand_setmicmute⟩, fun s => ?_⟩
  have h0 : isFlag 0 = true := rfl
  have h1 : isFlag 1 = true := rfl
  refine ⟨next_setter_accepted h0, next_setter_accepted h1, next_setter_accepted h0, next_setter_accepted h1,
    fun v hne0 hne1 => ?_⟩
  have hcheck := isFlag_of_outside hne0 hne1
  exact ⟨next_setter_rejected hcheck, next_setter_rejected hcheck⟩

/-! ## The frame of all ten (R222, R296) -/

/-- Settles O17: every setter is `State.setter`, which writes PO and a response and nothing else. -/
theorem settersChangeNothingButPendingOutput : Obligations.SettersChangeNothingButPendingOutput := by
  intro i s hset
  have hframe : ∀ t, exec i s = .next t → t.err = s.err ∧ t.run = s.run ∧ t.phase = s.phase ∧ t.stopreq = s.stopreq
      ∧ t.cs = s.cs ∧ t.ev = s.ev ∧ t.trace = s.trace
      ∧ (∀ a, Memory.read t.inbuf a = Memory.read s.inbuf a)
      ∧ ∀ a, Memory.read t.outbuf a = Memory.read s.outbuf a := by
    intro t h
    obtain ⟨po, resps, rfl⟩ := exec_setter_writes hset h
    exact ⟨rfl, rfl, rfl, rfl, rfl, rfl, rfl, fun _ => rfl, fun _ => rfl⟩
  obtain ⟨b, g, hexec⟩ := exec_of_isSetter hset
  cases b with
  | true => exact ⟨g s.po, .ok, (hexec s).trans (next_setter_accepted rfl), .inl rfl, hframe⟩
  | false => exact ⟨s.po, .error .domainRange, (hexec s).trans (next_setter_rejected rfl), .inr ⟨rfl, rfl⟩, hframe⟩

end Sys2Proof.Machine
end

section
/-! PROOFS. The change detector (spec/44_change_detector.md): one bit of the event vector per changed signal, the baseline, and
the event port. -/

namespace Sys2Proof.Machine

variable {p c : ControllerState} {i : Nat}

/-! ## The event vector (R241, R244) -/

theorem evOf_getLsbD : (evOf p c).getLsbD i = (changedSignals p c)[i]?.getD false := by
  rw [← List.getD_eq_getElem?_getD]
  exact (BitVec.getLsbD_cast ..).trans BitVec.getLsbD_ofBoolListLE

/-- A row of the signal table: bit `i` says what `changedSignals` holds at index `i`. -/
theorem evOf_getLsbD_iff {P : Prop} [Decidable P] (hrow : (changedSignals p c)[i]? = some (decide P)) :
    (evOf p c).getLsbD i = true ↔ P := by
  rw [evOf_getLsbD, hrow, Option.getD_some, decide_eq_true_iff]

theorem Gyro.ne_iff {g g' : Gyro} : g ≠ g' ↔ g.pitch ≠ g'.pitch ∨ g.yaw ≠ g'.yaw ∨ g.roll ≠ g'.roll := by
  cases g; cases g'; simp only [ne_eq, Gyro.mk.injEq]; tauto

theorem Accel.ne_iff {a a' : Accel} : a ≠ a' ↔ a.x ≠ a'.x ∨ a.y ≠ a'.y ∨ a.z ≠ a'.z := by
  cases a; cases a'; simp only [ne_eq, Accel.mk.injEq]; tauto

/-- Settles O34: DIFF is one update of the state, and each bit with a baseline is a row of the signal table. -/
theorem diffRaisesTheChangedSignals : Obligations.DiffRaisesTheChangedSignals := by
  intro s
  refine ⟨if s.prevv then evOf s.prev s.cs else 0#25, rfl, fun h => by rw [h]; rfl, fun h => ?_⟩
  rw [if_pos h, ← Gyro.ne_iff, ← Accel.ne_iff]
  and_intros <;> exact evOf_getLsbD_iff rfl

/-! ## What no event observes (R246, R248) -/

theorem evOf_eq_zero_iff : evOf p c = 0#25 ↔ ∀ b ∈ changedSignals p c, b = false := by
  constructor
  · intro h b hb
    obtain ⟨i, hi⟩ := List.mem_iff_getElem?.mp hb
    have hbit : (evOf p c).getLsbD i = b := by rw [evOf_getLsbD, hi, Option.getD_some]
    rw [← hbit, h, BitVec.getLsbD_zero]
  · intro h
    refine BitVec.eq_of_getLsbD_eq fun i _ => ?_
    rw [evOf_getLsbD, BitVec.getLsbD_zero]
    cases hi : (changedSignals p c)[i]? with
    | none => rfl
    | some b => exact h b (List.mem_of_getElem? hi)

theorem changedSignals_self : ∀ b ∈ changedSignals c c, b = false := by
  simp [changedSignals]

/-- The observed fields, the touch slots and the battery are all of ControllerState. -/
theorem eq_of_no_changedSignal (h : ∀ b ∈ changedSignals p c, b = false) (htouch0 : p.touch0 = c.touch0)
    (htouch1 : p.touch1 = c.touch1) (hbat : p.bat = c.bat) : p = c := by
  simp only [changedSignals, List.forall_mem_cons, decide_eq_false_iff_not, ne_eq, not_or, not_not] at h
  cases p; cases c
  simp_all only

/-- Settles O35: no signal reads a touch slot or the battery, and the signals read everything else. -/
theorem noEventIffOnlyUnobservedFieldsDiffer : Obligations.NoEventIffOnlyUnobservedFieldsDiffer := by
  intro p c
  have hsame : changedSignals p c
      = changedSignals { p with touch0 := c.touch0, touch1 := c.touch1, bat := c.bat } c := rfl
  rw [evOf_eq_zero_iff, hsame]
  constructor
  · intro h
    exact eq_of_no_changedSignal h rfl rfl rfl
  · intro h
    rw [h]
    exact changedSignals_self

/-! ## The event port (R245, R247, R249) -/

/-- Every signal index with the payload the model gives it, in the order of the signal table. -/
def signalTable (c : ControllerState) : List (Nat × EventPayload) :=
  (List.range 25).filterMap fun i => (payloadOf c i).map fun q => (i, q)

theorem mem_signalTable_iff {q : EventPayload} : (i, q) ∈ signalTable c ↔ i < 25 ∧ payloadOf c i = some q := by
  simp [signalTable]

theorem payloadOf_of_lt (h : i < 25) : ∃ v, payloadOf c i = some v := ⟨_, List.getElem?_eq_getElem h⟩

/-- A signal order of 25 entries that holds each of the 25 indices holds each once. -/
theorem configOk_signalOrder {cfg : Config} (h : configOk cfg = true) : cfg.signalOrder.Perm (List.range 25) := by
  simp only [configOk, Bool.and_eq_true, decide_eq_true_eq, List.all_eq_true, List.contains_iff_mem] at h
  obtain ⟨⟨-, hlength⟩, hall⟩ := h
  refine ((List.subperm_of_subset List.nodup_range hall).perm_of_length_le ?_).symm
  rw [hlength, List.length_range]

theorem eventPort_signals (s : State) :
    s.eventPort.map Prod.fst = s.cfg.signalOrder.filter fun i => s.ev.getLsbD i := by
  simp [State.eventPort, Function.comp_def]

theorem mem_eventPort_iff {s : State} {v : Option EventPayload} (hcfg : configOk s.cfg = true) :
    (i, v) ∈ s.eventPort ↔ s.ev.getLsbD i = true ∧ ∃ q, v = some q ∧ (i, q) ∈ signalTable s.cs := by
  have hport : (i, v) ∈ s.eventPort ↔ i < 25 ∧ s.ev.getLsbD i = true ∧ payloadOf s.cs i = v := by
    simp [State.eventPort, (configOk_signalOrder hcfg).mem_iff, and_assoc]
  simp only [hport, mem_signalTable_iff]
  constructor
  · rintro ⟨hlt, hev, rfl⟩
    obtain ⟨q, hq⟩ := payloadOf_of_lt (c := s.cs) hlt
    exact ⟨hev, q, hq, hlt, hq⟩
  · rintro ⟨hev, q, rfl, hlt, hq⟩
    exact ⟨hlt, hev, hq⟩

/-- Settles O36: DIFF keeps CS and the signal order, which lists every signal once, and the port filters that order. -/
theorem eventPortPresentsTheNewValues : Obligations.EventPortPresentsTheNewValues := by
  rintro s _ hcfg ⟨⟩
  refine ⟨fun i p => mem_eventPort_iff hcfg, ?_⟩
  rw [eventPort_signals]
  exact ⟨((configOk_signalOrder hcfg).nodup_iff.mpr List.nodup_range).filter _, List.filter_sublist⟩

end Sys2Proof.Machine
end

section
/-! PROOFS. The invariant of a session (spec/45_sequencer.md R260, R263, R269): what it says of the sequencer before, inside and
after the loop, and that every turn keeps it. -/

namespace Sys2Proof.Machine

/-! ## The bits of `ERR` that the sequencer looks at -/

/-- An illegal command sets no bit: it is answered and nothing else happens (spec/60_exceptions.md R297). -/
theorem takeError_illegalCommand (s : State) :
    s.takeError .illegalCommand .command = { s with resps := .error .illegalCommand :: s.resps } := by
  simp [State.takeError, stickyBit]

theorem or_transportIO_of_failed : ∀ err : BitVec 3, transportFailed err = true → err ||| stickyBit .transportIO = err := by
  decide

/-- A transport error that is reported again sets no new bit (spec/45_sequencer.md R270). -/
theorem takeError_transportIO_again {s : State} (h : transportFailed s.err = true) :
    s.takeError .transportIO .command = { s with resps := .error .transportIO :: s.resps } := by
  simp [State.takeError, or_transportIO_of_failed _ h]

@[simp] theorem stickyBit_bit_one (e : ErrClass) : (stickyBit e)[1] = decide (e = .deviceUnavailable) := by
  cases e <;> rfl

@[simp] theorem stickyBit_bit_two (e : ErrClass) : (stickyBit e)[2] = decide (e = .transportIO) := by
  cases e <;> rfl

/-! ## The three parts of a session -/

/-- No ENCODE is in progress. -/
def NoEncode (s : State) : Prop := s.enc = .start ∧ s.latched = []

/-- The command port is free or a STOP waits at it (spec/45_sequencer.md R270). -/
def FreeOrStopWaits (s : State) : Prop := s.held = none ∨ (s.held = some .stop ∧ s.stopreq = true)

/-- How often the transport has been closed. -/
def State.closes (s : State) : Nat := s.trace.count Transaction.close

/-- Before the loop nothing has happened, but that START may have issued DETECT (spec/45_sequencer.md R261). -/
structure BeforeLoop (s : State) : Prop where
  run : s.run = .stoppedInit
  port : (s.phase = .idle ∧ s.held = none) ∨ (s.phase = .detect ∧ s.held = some .start)
  modev : s.modev = false
  stopreq : s.stopreq = false
  err : s.err = 0#3
  prevv : s.prevv = false
  noEncode : NoEncode s
  closes : s.closes = 0

/-- The place in the cycle: outside ENCODE and WRITE; in an ENCODE whose fields are not written; in a Bluetooth ENCODE whose
checksum is not stored; in WRITE, with the report there (spec/45_sequencer.md R263). A failed transport leads to CLOSE only. -/
inductive CyclePlace (phase : Phase) (err : BitVec 3) (mode : ConnMode) (enc : EncodeStage) (latched : List PoField)
    (outbuf : Memory) : Prop
  | outside (hphase : phase ≠ .detect ∧ phase ≠ .encode ∧ phase ≠ .write) (henc : enc = .start) (hread : latched = [])
      (hio : err.getLsbD 2 = true → phase = .close)
  | fields (hphase : phase = .encode) (henc : enc = .start) (honce : latched.Nodup) (hio : err.getLsbD 2 = false)
  | checksum (hphase : phase = .encode) (henc : enc ≠ .start) (hmode : mode = .bt) (hread : latched = [])
      (hlisted : listedBelow outbuf bufferSize) (hio : err.getLsbD 2 = false)
  | report (hphase : phase = .write) (henc : enc = .start) (hread : latched = [])
      (hlisted : listedBelow outbuf (outLen mode)) (hio : err.getLsbD 2 = false)

/-- Inside the loop the mode is known and the transport is open (spec/42_encoder.md R192, spec/45_sequencer.md R269). -/
structure InLoop (s : State) : Prop where
  run : s.run = .running
  port : FreeOrStopWaits s
  modev : s.modev = true
  unavailable : s.err.getLsbD 1 = false
  closes : s.closes = 0
  place : CyclePlace s.phase s.err s.mode s.enc s.latched s.outbuf

/-- After the loop the transport has been closed, unless it was never open (spec/45_sequencer.md R269). -/
structure AfterLoop (s : State) : Prop where
  run : s.run = .stoppedFinal
  phase : s.phase = .idle
  port : FreeOrStopWaits s
  noEncode : NoEncode s
  closes : s.closes = if s.err.getLsbD 1 = false then 1 else 0

section
variable {s t : State}

theorem FreeOrStopWaits.not_start (h : FreeOrStopWaits s) : s.held ≠ some .start := by
  obtain hnone | ⟨hstop, -⟩ := h
  · rw [hnone]; nofun
  · rw [hstop]; nofun

theorem FreeOrStopWaits.stopreq (h : FreeOrStopWaits s) (hstop : s.held = some .stop) : s.stopreq = true := by
  obtain hnone | ⟨-, hreq⟩ := h
  · rw [hnone] at hstop; cases hstop
  · exact hreq

theorem BeforeLoop.sequencerOk (h : BeforeLoop s) : SequencerOk s := by
  obtain ⟨hrun, hport, hmodev, hstopreq, herr, hprevv, ⟨henc, hlatched⟩, hcloses⟩ := h
  exact
    { initPhase := fun _ => hport.imp And.left And.left
      initFlags := fun _ => ⟨hmodev, hstopreq, herr, hprevv⟩
      detectForStart := by obtain ⟨hp, hh⟩ | ⟨hp, hh⟩ := hport <;> simp [hp, hh]
      detectOnlyInit := fun _ => hrun
      runningMode := fun hr => absurd hr (hrun.trans_ne nofun)
      runningErr := fun hr => absurd hr (hrun.trans_ne nofun)
      finalPhase := fun hf => absurd hf (hrun.trans_ne nofun)
      stopWaits := fun hs => by obtain ⟨-, hh⟩ | ⟨-, hh⟩ := hport <;> rw [hh] at hs <;> cases hs
      encStage := fun he => absurd henc he
      writeReady := fun hw => by obtain ⟨hp, -⟩ | ⟨hp, -⟩ := hport <;> rw [hp] at hw <;> cases hw
      latchedInEncode := fun hl => absurd hlatched hl
      latchedOnce := hlatched ▸ List.nodup_nil
      closedOnce := hcloses.trans (by simp [hrun]) }

theorem AfterLoop.sequencerOk (h : AfterLoop s) : SequencerOk s := by
  obtain ⟨hrun, hphase, hport, ⟨henc, hlatched⟩, hcloses⟩ := h
  exact
    { initPhase := fun hi => absurd hi (hrun.trans_ne nofun)
      initFlags := fun hi => absurd hi (hrun.trans_ne nofun)
      detectForStart := iff_of_false (hphase.trans_ne nofun) hport.not_start
      detectOnlyInit := fun hp => absurd hp (hphase.trans_ne nofun)
      runningMode := fun hr => absurd hr (hrun.trans_ne nofun)
      runningErr := fun hr => absurd hr (hrun.trans_ne nofun)
      finalPhase := fun _ => hphase
      stopWaits := fun hs => ⟨hport.stopreq hs, hrun.trans_ne nofun⟩
      encStage := fun he => absurd henc he
      writeReady := fun hw => absurd hw (hphase.trans_ne nofun)
      latchedInEncode := fun hl => absurd hlatched hl
      latchedOnce := hlatched ▸ List.nodup_nil
      closedOnce := hcloses.trans (by simp [hrun]) }

/-! What the place in the cycle says, whichever it is. -/

section
variable {phase : Phase} {err : BitVec 3} {mode : ConnMode} {enc : EncodeStage} {latched : List PoField} {outbuf : Memory}

theorem CyclePlace.not_detect (h : CyclePlace phase err mode enc latched outbuf) : phase ≠ .detect := by
  cases h with
  | outside hphase => exact hphase.1
  | fields hphase | checksum hphase | report hphase => rw [hphase]; nofun

theorem CyclePlace.failed (h : CyclePlace phase err mode enc latched outbuf) (hfailed : err.getLsbD 2 = true) :
    phase = .close := by
  cases h with
  | outside _ _ _ hio => exact hio hfailed
  | fields _ _ _ hio | checksum _ _ _ _ _ hio | report _ _ _ _ hio => rw [hio] at hfailed; cases hfailed

theorem CyclePlace.fine (h : CyclePlace phase err mode enc latched outbuf) (hne : phase ≠ .close) :
    err.getLsbD 2 = false :=
  Bool.eq_false_of_not_eq_true (mt h.failed hne)

theorem CyclePlace.noEncode (h : CyclePlace phase err mode enc latched outbuf) (hne : phase ≠ .encode) :
    enc = .start ∧ latched = [] := by
  cases h with
  | outside _ henc hread | report _ henc hread => exact ⟨henc, hread⟩
  | fields hphase | checksum hphase => exact absurd hphase hne

/-- Outside ENCODE a micro-operation that fails or goes on leads to a place outside ENCODE and WRITE. -/
theorem CyclePlace.toOutside (h : CyclePlace phase err mode enc latched outbuf) {p : Phase} {err' : BitVec 3}
    (hne : phase ≠ .encode) (hp : p ≠ .detect ∧ p ≠ .encode ∧ p ≠ .write) (hio : err'.getLsbD 2 = true → p = .close) :
    CyclePlace p err' mode enc latched outbuf :=
  have ⟨henc, hread⟩ := h.noEncode hne
  .outside hp henc hread hio

theorem CyclePlace.goesOn (h : CyclePlace phase err mode enc latched outbuf) {p : Phase}
    (hne : phase ≠ .encode ∧ phase ≠ .close) (hp : p ≠ .detect ∧ p ≠ .encode ∧ p ≠ .write) :
    CyclePlace p err mode enc latched outbuf :=
  h.toOutside hne.1 hp fun hfailed => absurd (h.failed hfailed) hne.2

theorem CyclePlace.encStage (h : CyclePlace phase err mode enc latched outbuf) (hne : enc ≠ .start) :
    phase = .encode ∧ mode = .bt ∧ latched = [] ∧ listedBelow outbuf bufferSize := by
  cases h with
  | checksum hphase _ hmode hread hlisted => exact ⟨hphase, hmode, hread, hlisted⟩
  | outside _ henc | fields _ henc | report _ henc => exact absurd henc hne

theorem CyclePlace.writeReady (h : CyclePlace phase err mode enc latched outbuf) (hwrite : phase = .write) :
    listedBelow outbuf (outLen mode) := by
  cases h with
  | report _ _ _ hlisted => exact hlisted
  | outside hphase => exact absurd hwrite hphase.2.2
  | fields hphase | checksum hphase => rw [hphase] at hwrite; cases hwrite

theorem CyclePlace.latchedInEncode (h : CyclePlace phase err mode enc latched outbuf) (hne : latched ≠ []) :
    phase = .encode ∧ enc = .start := by
  cases h with
  | fields hphase henc => exact ⟨hphase, henc⟩
  | outside _ _ hread | checksum _ _ _ hread | report _ _ hread => exact absurd hread hne

theorem CyclePlace.latchedOnce (h : CyclePlace phase err mode enc latched outbuf) : latched.Nodup := by
  cases h with
  | fields _ _ honce => exact honce
  | outside _ _ hread | checksum _ _ _ hread | report _ _ hread => rw [hread]; exact List.nodup_nil

end

theorem InLoop.sequencerOk (h : InLoop s) : SequencerOk s := by
  obtain ⟨hrun, hport, hmodev, hunavailable, hcloses, hplace⟩ := h
  exact
    { initPhase := fun hi => absurd hi (hrun.trans_ne nofun)
      initFlags := fun hi => absurd hi (hrun.trans_ne nofun)
      detectForStart := iff_of_false hplace.not_detect hport.not_start
      detectOnlyInit := fun hp => absurd hp hplace.not_detect
      runningMode := fun _ => hmodev
      runningErr := fun _ => ⟨hunavailable, hplace.failed⟩
      finalPhase := fun hf => absurd hf (hrun.trans_ne nofun)
      stopWaits := fun hs => ⟨hport.stopreq hs, hrun.trans_ne nofun⟩
      encStage := fun he => have ⟨hphase, hmode, _, hlisted⟩ := hplace.encStage he; ⟨hrun, hphase, hmode, hlisted⟩
      writeReady := hplace.writeReady
      latchedInEncode := fun hl => ⟨hrun, hplace.latchedInEncode hl⟩
      latchedOnce := hplace.latchedOnce
      closedOnce := hcloses.trans (by simp [hrun]) }

/-! Conversely, what a session is in each value of `RUN`. -/

theorem SequencerOk.noEncode (h : SequencerOk s) (hnot : ¬(s.run = .running ∧ s.phase = .encode)) : NoEncode s := by
  refine ⟨by_contra fun hne => hnot ?_, by_contra fun hne => hnot ?_⟩
  · obtain ⟨hrun, hphase, -⟩ := h.encStage hne
    exact ⟨hrun, hphase⟩
  · obtain ⟨hrun, hphase, -⟩ := h.latchedInEncode hne
    exact ⟨hrun, hphase⟩

theorem SequencerOk.freeOrStopWaits (h : SequencerOk s) (hphase : s.phase ≠ .detect) : FreeOrStopWaits s := by
  cases hheld : s.held with
  | none => exact .inl hheld
  | some c =>
    cases c with
    | start => exact absurd (h.detectForStart.mpr hheld) hphase
    | stop => exact .inr ⟨hheld, (h.stopWaits hheld).1⟩

theorem SequencerOk.beforeLoop (h : SequencerOk s) (hrun : s.run = .stoppedInit) : BeforeLoop s := by
  obtain ⟨hmodev, hstopreq, herr, hprevv⟩ := h.initFlags hrun
  refine ⟨hrun, (h.initPhase hrun).imp (fun hidle => ⟨hidle, ?_⟩) (fun hdetect => ⟨hdetect, h.detectForStart.mp hdetect⟩),
    hmodev, hstopreq, herr, hprevv, h.noEncode (by simp [hrun]), h.closedOnce.trans (by simp [hrun])⟩
  obtain hnone | ⟨-, hreq⟩ := h.freeOrStopWaits (by rw [hidle]; nofun)
  · exact hnone
  · rw [hstopreq] at hreq; cases hreq

theorem SequencerOk.cyclePlace (h : SequencerOk s) (hrun : s.run = .running) :
    CyclePlace s.phase s.err s.mode s.enc s.latched s.outbuf := by
  have hio := (h.runningErr hrun).2
  have hfine : s.phase ≠ .close → s.err.getLsbD 2 = false := fun hne => Bool.eq_false_of_not_eq_true (mt hio hne)
  cases hphase : s.phase with
  | detect => have hinit := h.detectOnlyInit hphase; rw [hrun] at hinit; cases hinit
  | encode =>
    have hio := hfine (by rw [hphase]; nofun)
    by_cases henc : s.enc = .start
    · exact .fields rfl henc h.latchedOnce hio
    · obtain ⟨-, -, hmode, hlisted⟩ := h.encStage henc
      exact .checksum rfl henc hmode (by_contra fun hl => henc (h.latchedInEncode hl).2.2) hlisted hio
  | write =>
    obtain ⟨henc, hread⟩ := h.noEncode (by simp [hphase])
    exact .report rfl henc hread (h.writeReady hphase) (hfine (by rw [hphase]; nofun))
  | idle | read | decode | diff | close =>
    obtain ⟨henc, hread⟩ := h.noEncode (by simp [hphase])
    exact .outside (by simp) henc hread (hphase ▸ hio)

theorem SequencerOk.inLoop (h : SequencerOk s) (hrun : s.run = .running) : InLoop s :=
  have hplace := h.cyclePlace hrun
  ⟨hrun, h.freeOrStopWaits hplace.not_detect, h.runningMode hrun, (h.runningErr hrun).1,
    h.closedOnce.trans (by simp [hrun]), hplace⟩

theorem SequencerOk.afterLoop (h : SequencerOk s) (hrun : s.run = .stoppedFinal) : AfterLoop s :=
  have hphase := h.finalPhase hrun
  ⟨hrun, hphase, h.freeOrStopWaits (by rw [hphase]; nofun), h.noEncode (by simp [hrun]), h.closedOnce.trans (by simp [hrun])⟩

/-! ## Turns before the loop -/

/-- The caller issues START, or loses the session to a device that is not open; STOP is refused. -/
theorem BeforeLoop.callerEffect (hs : BeforeLoop s) (h : CallerEffect s t) : SequencerOk t := by
  cases h with
  | wait | illegalWord => exact BeforeLoop.sequencerOk { hs with }
  | setter _ hset hexec =>
    obtain ⟨po, resps, rfl⟩ := exec_setter_writes hset hexec
    exact BeforeLoop.sequencerOk { hs with }
  | startRefused _ hrun => exact absurd hs.run hrun
  | stopRefused => rw [takeError_illegalCommand]; exact BeforeLoop.sequencerOk { hs with }
  | startIssued => exact BeforeLoop.sequencerOk { hs with port := .inr ⟨rfl, rfl⟩ }
  | startUnavailable hport =>
    obtain ⟨hfree, -⟩ := hport
    have hidle : s.phase = .idle := by
      obtain ⟨hp, -⟩ | ⟨-, hheld⟩ := hs.port
      · exact hp
      · rw [hfree] at hheld; cases hheld
    exact AfterLoop.sequencerOk
      { run := rfl, phase := hidle, port := .inl hfree, noEncode := hs.noEncode
        closes := hs.closes.trans (by simp) }
  | stopRequested _ hrun | stopReportsFailure _ hrun | stopReportsOk _ hrun => exact absurd hrun (hs.run.trans_ne nofun)

/-- A detection that fails closes the transport (spec/45_sequencer.md R262). -/
theorem BeforeLoop.detectFails (hs : BeforeLoop s) (n : Nat) (rest : List RxAnswer) {e : ErrClass}
    (he : e ≠ .deviceUnavailable) : AfterLoop ((s.tookRead n rest).detectFails e) where
  run := rfl
  phase := rfl
  port := .inl rfl
  noEncode := hs.noEncode
  closes := by
    have hcloses : s.trace.count Transaction.close = 0 := hs.closes
    simp [State.closes, hs.err, he, hcloses]

/-- A detection that succeeds enters the loop at the cycle boundary; one that fails ends the session. -/
theorem BeforeLoop.workerEffect (hs : BeforeLoop s) (h : WorkerEffect s t) : SequencerOk t := by
  cases h with
  | wait => exact hs.sequencerOk
  | detectIoFails | detectFindsNoMode => exact AfterLoop.sequencerOk (hs.detectFails _ _ (by decide))
  | detected =>
    exact InLoop.sequencerOk
      { run := rfl, port := .inl rfl, modev := rfl
        unavailable := by simp [hs.err]
        closes := by simpa [State.closes] using hs.closes
        place := .outside (by simp) hs.noEncode.1 hs.noEncode.2 (by simp [hs.err]) }
  | boundary hrun | readFails hrun | readStores hrun | decoded hrun | malformed hrun | compared hrun | fieldsEncoded hrun
  | tailEncoded hrun | checksummed hrun | writeFails hrun | written hrun | closed hrun =>
    exact absurd hrun (hs.run.trans_ne nofun)

/-! ## Turns inside the loop -/

/-- A command leaves the worker's place alone; STOP sets the request and waits. -/
theorem InLoop.callerEffect (hs : InLoop s) (h : CallerEffect s t) : InLoop t := by
  cases h with
  | wait | illegalWord => exact { hs with }
  | setter _ hset hexec => obtain ⟨po, resps, rfl⟩ := exec_setter_writes hset hexec; exact { hs with }
  | startRefused => rw [takeError_illegalCommand]; exact { hs with }
  | stopRequested => exact { hs with port := .inr ⟨rfl, rfl⟩ }
  | startIssued _ hrun | startUnavailable _ hrun | stopRefused _ hrun | stopReportsFailure _ hrun | stopReportsOk _ hrun =>
    exact absurd hrun (hs.run.trans_ne nofun)

/-- The fields are written: over USB the report is there, over Bluetooth CRC32 is called. -/
theorem InLoop.encodeFields (hs : InLoop s) (hphase : s.phase = .encode) : InLoop s.encodeFields := by
  have hio := hs.place.fine (by rw [hphase]; nofun)
  have hlisted := listedBelow_writeBytes s.outbuf (reportBody s.cfg s.mode s.snapshot)
  rw [reportBody_length] at hlisted
  cases hmode : s.mode with
  | usb =>
    have hreport : listedBelow (Memory.writeBytes s.outbuf 0 (reportBody s.cfg .usb s.snapshot)) (outLen s.mode) := by
      rwa [hmode] at hlisted ⊢
    rw [encodeFields_usb hmode]
    exact { hs with place := .report rfl rfl rfl hreport hio }
  | bt =>
    rw [hmode] at hlisted
    rw [encodeFields_bt hmode]
    exact { hs with place := .checksum rfl nofun hmode rfl hlisted hio }

theorem malformedNext_outside (p : MalformedPolicy) :
    malformedNext p ≠ .detect ∧ malformedNext p ≠ .encode ∧ malformedNext p ≠ .write := by
  cases p <;> decide

/-- Every micro-operation leads to a place of the cycle, and CLOSE out of the loop (spec/45_sequencer.md R263). -/
theorem InLoop.workerEffect (hs : InLoop s) (h : WorkerEffect s t) : InLoop t ∨ AfterLoop t := by
  cases h with
  | wait => exact .inl hs
  | detectIoFails hrun | detectFindsNoMode hrun | detected hrun => exact absurd hrun (hs.run.trans_ne nofun)
  | boundary _ hphase =>
    exact .inl { hs with place := hs.place.goesOn (by simp [hphase]) (by cases hreq : s.stopreq <;> simp [hreq]) }
  | readFails _ hphase | writeFails _ hphase =>
    exact .inl
      { hs with
        unavailable := by simpa using hs.unavailable
        closes := by simpa [State.closes] using hs.closes
        place := hs.place.toOutside (by simp [hphase]) (by simp) fun _ => rfl }
  | readStores _ hphase | written _ hphase =>
    exact .inl
      { hs with
        closes := by simpa [State.closes] using hs.closes
        place := hs.place.goesOn (by simp [hphase]) (by simp) }
  | decoded _ hphase => exact .inl { hs with place := hs.place.goesOn (by simp [hphase]) (by simp) }
  | malformed _ hphase =>
    have hio : s.err[2] = false := by simpa using hs.place.fine (by simp [hphase])
    exact .inl
      { hs with
        unavailable := by simpa using hs.unavailable
        place := hs.place.toOutside (by simp [hphase]) (malformedNext_outside _) fun hf => by simp [hio] at hf }
  | compared _ hphase =>
    obtain ⟨henc, hread⟩ := hs.place.noEncode (by simp [hphase])
    exact .inl { hs with place := .fields rfl henc (hread ▸ List.nodup_nil) (hs.place.fine (by simp [hphase])) }
  | fieldsEncoded _ hphase => exact .inl (hs.encodeFields hphase)
  | @tailEncoded crc _ hphase henc =>
    obtain ⟨-, -, hread, hlisted⟩ := hs.place.encStage (by simp [henc])
    have hreport := listedBelow_mono (listedBelow_write crcTail (littleEndian4 crc) hlisted) (outLen_le_bufferSize s.mode)
    exact .inl { hs with place := .report rfl rfl hread hreport (hs.place.fine (by simp [hphase])) }
  | checksummed _ hphase henc hmode =>
    obtain ⟨-, -, hread, hlisted⟩ := hs.place.encStage (by simp [henc])
    exact .inl { hs with place := .checksum hphase nofun hmode hread hlisted (hs.place.fine (by simp [hphase])) }
  | closed _ hphase =>
    have hcloses : s.trace.count Transaction.close = 0 := hs.closes
    have hunavailable : s.err[1] = false := by simpa using hs.unavailable
    exact .inr
      { run := rfl, phase := rfl, port := hs.port, noEncode := hs.place.noEncode (by simp [hphase])
        closes := by simp [State.closes, hcloses, hunavailable] }

/-- A field is read ahead only inside an ENCODE whose fields are not written, and once (spec/20_memory.md R72). -/
theorem InLoop.sample (hs : InLoop s) (f : PoField) : InLoop (s.sample f) := by
  unfold State.sample
  split
  · next hbegun =>
    obtain ⟨-, hphase, henc, -, hnew⟩ := hbegun
    have honce := List.nodup_cons.mpr ⟨hnew, hs.place.latchedOnce⟩
    exact { hs with place := .fields hphase henc honce (hs.place.fine (by simp [hphase])) }
  · exact hs

/-! ## Turns after the loop -/

/-- Only the command port moves (spec/45_sequencer.md R272). -/
theorem callerEffect_afterLoop (hend : s.run = .stoppedFinal) (h : CallerEffect s t) :
    ∃ po cmds held resps, t = { s with po := po, cmds := cmds, held := held, resps := resps }
      ∧ (held = s.held ∨ held = none) := by
  cases h with
  | wait | illegalWord => exact ⟨_, _, _, _, rfl, .inl rfl⟩
  | setter _ hset hexec =>
    obtain ⟨po, resps, rfl⟩ := exec_setter_writes hset hexec
    exact ⟨_, _, _, _, rfl, .inl rfl⟩
  | startRefused => exact ⟨_, _, _, _, takeError_illegalCommand _, .inl rfl⟩
  | stopReportsOk => exact ⟨_, _, _, _, rfl, .inr rfl⟩
  | stopReportsFailure _ _ herr => exact ⟨_, _, _, _, takeError_transportIO_again herr, .inr rfl⟩
  | startIssued _ hrun | startUnavailable _ hrun | stopRefused _ hrun | stopRequested _ hrun =>
    exact absurd hrun (hend.trans_ne nofun)

/-- The worker takes no step (spec/45_sequencer.md R272). -/
theorem workerEffect_afterLoop (hend : s.run = .stoppedFinal) (h : WorkerEffect s t) : t = s := by
  cases h with
  | wait => rfl
  | boundary hrun | detectIoFails hrun | detectFindsNoMode hrun | detected hrun | readFails hrun | readStores hrun
  | decoded hrun | malformed hrun | compared hrun | fieldsEncoded hrun | tailEncoded hrun | checksummed hrun
  | writeFails hrun | written hrun | closed hrun => exact absurd hrun (hend.trans_ne nofun)

theorem AfterLoop.callerEffect (hs : AfterLoop s) (h : CallerEffect s t) : AfterLoop t := by
  obtain ⟨po, cmds, held, resps, rfl, hheld⟩ := callerEffect_afterLoop hs.run h
  obtain rfl | rfl := hheld
  · exact { hs with }
  · exact { hs with port := .inl rfl }

theorem sample_of_not_running (hrun : s.run ≠ .running) (f : PoField) : s.sample f = s :=
  if_neg fun hbegun => hrun hbegun.1

/-! ## One step -/

theorem callerEffect_sequencerOk (h : CallerEffect s t) (hs : SequencerOk s) : SequencerOk t := by
  cases hrun : s.run with
  | stoppedInit => exact (hs.beforeLoop hrun).callerEffect h
  | running => exact ((hs.inLoop hrun).callerEffect h).sequencerOk
  | stoppedFinal => exact ((hs.afterLoop hrun).callerEffect h).sequencerOk

theorem workerEffect_sequencerOk (h : WorkerEffect s t) (hs : SequencerOk s) : SequencerOk t := by
  cases hrun : s.run with
  | stoppedInit => exact (hs.beforeLoop hrun).workerEffect h
  | running => exact ((hs.inLoop hrun).workerEffect h).elim InLoop.sequencerOk AfterLoop.sequencerOk
  | stoppedFinal => rw [workerEffect_afterLoop hrun h]; exact hs

theorem sample_sequencerOk (f : PoField) (hs : SequencerOk s) : SequencerOk (s.sample f) := by
  by_cases hrun : s.run = .running
  · exact ((hs.inLoop hrun).sample f).sequencerOk
  · rw [sample_of_not_running hrun]; exact hs

/-- The stored report is there, and no longer than the buffer (spec/10_state.md R48). -/
def ReportStored (s : State) : Prop := s.inlen ≤ bufferSize ∧ listedBelow s.inbuf s.inlen

theorem callerEffect_reportStored (h : CallerEffect s t) (hs : ReportStored s) : ReportStored t := by
  cases h with
  | setter _ hset hexec => obtain ⟨po, resps, rfl⟩ := exec_setter_writes hset hexec; exact hs
  | _ => exact hs

/-- READ stores the bytes whose number it keeps. -/
theorem workerEffect_reportStored (h : WorkerEffect s t) (hs : ReportStored s) : ReportStored t := by
  cases h with
  | @readStores bs =>
    exact ⟨(List.length_take_le (inLen s.mode) bs).trans (inLen_le_bufferSize s.mode), listedBelow_writeBytes s.inbuf _⟩
  | fieldsEncoded => simpa [ReportStored] using hs
  | _ => exact hs

end

theorem step_keeps_sequencerOk {s t : State} (hs : SequencerOk s) (h : step s = .next t) : SequencerOk t :=
  step_keeps (fun _ _ hs => { hs with }) (fun _ _ => callerEffect_sequencerOk) (fun _ _ => workerEffect_sequencerOk)
    (fun _ => sample_sequencerOk) hs h

theorem step_keeps_reportStored {s t : State} (hs : ReportStored s) (h : step s = .next t) : ReportStored t :=
  step_keeps (fun _ _ hs => hs) (fun _ _ => callerEffect_reportStored) (fun _ _ => workerEffect_reportStored)
    (fun s f hs => by simpa [ReportStored] using hs) hs h

/-- Settles O58: the ranges and the canonical form are kept as shown above, the stored report and the sequencer here. -/
theorem stepKeepsTheInvariant : Obligations.StepKeepsTheInvariant := by
  intro s t hs h
  obtain ⟨hcfg, -⟩ := modeAndParametersAreFixedForTheSession s t h
  obtain ⟨hpo, hlatch⟩ := (stepKeepsRegisterRanges.1 s hs.po hs.latch).2 t h
  obtain ⟨hcs, hprev⟩ := stepKeepsRegisterRanges.2 s t hs.cs hs.prev h
  obtain ⟨hin, hout⟩ := stepKeepsBuffersCanonical s t hs.buffers.inbufWf hs.buffers.outbufWf h
  obtain ⟨hbound, hstored⟩ := step_keeps_reportStored ⟨hs.buffers.inlenBound, hs.buffers.reportStored⟩ h
  exact ⟨hcfg ▸ hs.config, hcs, hprev, hpo, hlatch, ⟨hin, hout, hbound, hstored⟩, step_keeps_sequencerOk hs.sequencer h⟩

end Sys2Proof.Machine
end

section
/-! PROOFS. The operations of the sequencer, one by one (spec/45_sequencer.md): START and STOP, DETECT, READ, DECODE, WRITE,
CLOSE, and which of them the worker's turn performs. -/

namespace Sys2Proof.Machine

/-! ## What the worker's turn performs (R263) -/

section
variable {s : State} {ts : List Turn}

theorem step_detect (hturns : s.turns = .worker :: ts) (hrun : s.run = .stoppedInit) (hphase : s.phase = .detect) :
    step s = exec .detect { s with turns := ts } := by
  have hsel : s.selector = some (.seq (phaseCode .detect)) := by simp [State.selector, hrun, hphase]
  exact step_selected hturns hsel rfl

/-- Inside the loop `PHASE` alone selects the operation, but for the boundary and ENCODE. -/
theorem step_phase {p : Phase} (i : Instr) (hturns : s.turns = .worker :: ts) (hrun : s.run = .running) (hphase : s.phase = p)
    (hp : p ≠ .idle ∧ p ≠ .detect ∧ p ≠ .encode) (hdecode : decode (.seq (phaseCode p)) = .ok i) :
    step s = exec i { s with turns := ts } := by
  obtain ⟨hidle, hdetect, hencode⟩ := hp
  simp only [step, hturns]
  exact workerTurn_of_running (s := { s with turns := ts }) i hrun hphase hidle hdetect hencode hdecode

/-- At the cycle boundary no operation is selected and `STOPREQ` is sampled (R264). -/
theorem step_boundary (hturns : s.turns = .worker :: ts) (hrun : s.run = .running) (hphase : s.phase = .idle) :
    step s = .next { s with turns := ts, phase := if s.stopreq then .close else .read } := by
  simp [step, hturns, takeTurn, workerTurn, State.selector, hrun, hphase, State.cycleBoundary]

end

/-- Settles O9, phase by phase. -/
theorem workerStepRunsTheSelectedMicroOperation : Obligations.WorkerStepRunsTheSelectedMicroOperation := by
  intro s ts hturns
  refine ⟨fun e i => step_selected hturns, step_detect hturns, fun hrun => ⟨?_, ?_, ?_, ?_, ?_, ?_, ?_⟩⟩
  · exact fun hphase => step_phase .read hturns hrun hphase (by decide) rfl
  · exact fun hphase => step_phase .decode hturns hrun hphase (by decide) rfl
  · exact fun hphase => step_phase .diff hturns hrun hphase (by decide) rfl
  · exact step_encode hturns hrun
  · exact step_crc32 hturns hrun
  · exact fun hphase => step_phase .write hturns hrun hphase (by decide) rfl
  · exact fun hphase => step_phase .close hturns hrun hphase (by decide) rfl

/-! ## STOP and CLOSE (R269, R270, R275) -/

section
variable {s : State}

theorem exec_stop_stoppedInit (hrun : s.run = .stoppedInit) :
    exec .stop s = .next { s with resps := .error .illegalCommand :: s.resps } := by
  simp only [exec, execStop, hrun, takeError_illegalCommand]

theorem exec_stop_running (hrun : s.run = .running) : exec .stop s = .next { s with stopreq := true, held := some .stop } := by
  simp only [exec, execStop, hrun]

theorem execStop_stoppedFinal (hrun : s.run = .stoppedFinal) :
    execStop s = if transportFailed s.err then .next (s.release.takeError .transportIO .command)
      else .next (s.release.respond .ok) := by
  simp only [execStop, hrun]

theorem exec_stop_ok (hrun : s.run = .stoppedFinal) (herr : transportFailed s.err = false) :
    exec .stop s = .next { s with held := none, resps := .ok :: s.resps } :=
  (execStop_stoppedFinal hrun).trans (if_neg (by simp [herr]))

theorem exec_stop_failed (hrun : s.run = .stoppedFinal) (herr : transportFailed s.err = true) :
    exec .stop s = .next { s with held := none, resps := .error .transportIO :: s.resps } :=
  (execStop_stoppedFinal hrun).trans
    ((if_pos herr).trans (congrArg _ (takeError_transportIO_again (s := s.release) herr)))

/-- A STOP that waits is taken up again at the caller's turn (log entry 11). -/
theorem step_held_stop_again {ts : List Turn} (hturns : s.turns = .caller :: ts) (hheld : s.held = some .stop) :
    step s = exec .stop { s with turns := ts } := by
  simp only [step, hturns, takeTurn, callerTurn, hheld]

end

/-- Settles O20, by value of RUN. -/
theorem stopWaitsForTheWorkerAndReports : Obligations.StopWaitsForTheWorkerAndReports := fun _ =>
  ⟨exec_stop_stoppedInit, exec_stop_running, exec_stop_ok, exec_stop_failed, fun _ => step_held_stop_again⟩

/-- Settles O24: CLOSE has no case in which it does anything else. -/
theorem closeEndsTheSession : Obligations.CloseEndsTheSession := fun _ => rfl

/-! ## DETECT (R262) -/

section
variable {s : State} {bs : List Byte} {rest : List RxAnswer}

/-- The detection read is oversized, so cutting an answer to its length makes no answer look like a report of a mode. -/
theorem modeOfLength_take {n : Nat} (hn : 79 ≤ n) (bs : List Byte) :
    modeOfLength (bs.take n).length = modeOfLength bs.length := by
  obtain hlt | hle := Nat.lt_or_ge n bs.length
  case inr => rw [List.take_of_length_le hle]
  case inl =>
    simp [modeOfLength, List.length_take, Nat.min_eq_left hlt.le, show n ≠ 64 by omega, show n ≠ 78 by omega,
      show bs.length ≠ 64 by omega, show bs.length ≠ 78 by omega]

theorem exec_detect_mode (hn : 79 ≤ s.cfg.detectReadLen) (hrx : s.rxQ = .bytes bs :: rest) {m : ConnMode}
    (hlen : modeOfLength bs.length = some m) :
    exec .detect s = .next { s with mode := m, modev := true, run := .running, phase := .idle, held := none, rxQ := rest
                                    trace := .read s.cfg.detectReadLen :: s.trace, resps := .ok :: s.resps } := by
  simp only [exec, execDetect, hrx, modeOfLength_take hn, hlen]
  rfl

theorem exec_detect_noMode (hn : 79 ≤ s.cfg.detectReadLen) (hrx : s.rxQ = .bytes bs :: rest)
    (hlen : modeOfLength bs.length = none) :
    exec .detect s = .next ((s.tookRead s.cfg.detectReadLen rest).detectFails .malformedReport) := by
  simp only [exec, execDetect, hrx, modeOfLength_take hn, hlen]

end

/-- Settles O21, by the length of the answer. -/
theorem detectDecidesTheModeByLength : Obligations.DetectDecidesTheModeByLength := by
  intro s rest hn
  refine ⟨fun bs hrx hlen => ?usb, fun bs hrx hlen => ?bt, fun bs hrx husb hbt => ?other, fun hrx => ?failed,
    fun hrx => ?waits⟩
  case usb => exact exec_detect_mode hn hrx (by simp [modeOfLength, hlen])
  case bt => exact exec_detect_mode hn hrx (by simp [modeOfLength, hlen])
  case other => exact exec_detect_noMode hn hrx (by simp [modeOfLength, husb, hbt])
  case failed => simp only [exec, execDetect, hrx]; rfl
  case waits => simp only [exec, execDetect, hrx]

/-! ## START (R261, R274) -/

section
variable {s : State}

theorem exec_start_refused (hrun : s.run ≠ .stoppedInit) :
    exec .start s = .next { s with resps := .error .illegalCommand :: s.resps } := by
  simp only [exec, execStart, if_pos hrun, takeError_illegalCommand]

theorem exec_start_issued (hrun : s.run = .stoppedInit) (hdev : s.devOk = true) :
    exec .start s = .next { s with phase := .detect, held := some .start } := by
  simp [exec, execStart, hrun, hdev]

theorem exec_start_unavailable (hrun : s.run = .stoppedInit) (hdev : s.devOk = false) :
    exec .start s = .next { s with err := s.err ||| 0b010#3, run := .stoppedFinal
                                   resps := .error .deviceUnavailable :: s.resps } := by
  simp [exec, execStart, hrun, hdev, State.takeError, stickyBit]

end

/-- Settles O19: the DETECT that START issues finds the device's answer and the mode of its length. -/
theorem startChecksRunThenDevice : Obligations.StartChecksRunThenDevice := by
  refine fun s => ⟨exec_start_refused, exec_start_unavailable, exec_start_issued, ?_⟩
  intro bs rest ts hrun hdev hn hrx hlen hturns
  have hmode : modeOfLength bs.length = some (if bs.length = 64 then .usb else .bt) := by
    obtain h | h := hlen <;> simp [modeOfLength, h]
  refine ⟨_, exec_start_issued hrun hdev, ?_⟩
  have hdetect := exec_detect_mode (s := { s with phase := .detect, held := some .start, turns := ts }) hn hrx hmode
  exact (step_detect (s := { s with phase := .detect, held := some .start }) hturns hrun rfl).trans hdetect

/-! ## READ and WRITE (R265, R268, R273) -/

theorem exec_read_bytes {s : State} {bs : List Byte} {rest : List RxAnswer} (hrx : s.rxQ = .bytes bs :: rest)
    (hlen : bs.length ≤ inLen s.mode) :
    exec .read s = .next { s with rxQ := rest, trace := .read (inLen s.mode) :: s.trace
                                  inbuf := Memory.writeBytes s.inbuf 0 bs, inlen := bs.length, phase := .decode } := by
  simp only [exec, execRead, hrx, List.take_of_length_le hlen]
  rfl

/-- Settles O22: an answer no longer than asked for is stored whole, at the head of INBUF. -/
theorem readStoresTheAnswerOrGoesToClose : Obligations.ReadStoresTheAnswerOrGoesToClose := by
  refine fun s rest => ⟨fun bs hrx hlen => ?bytes, fun hrx => ?failed, fun hrx => ?waits⟩
  case bytes =>
    refine ⟨_, exec_read_bytes hrx hlen, rfl, fun i hi => read_writeBytes_head s.inbuf hi, fun a ha => ?_⟩
    exact read_writeBytes_outside _ _ _ _ (.inr (by omega))
  case failed => simp only [exec, execRead, hrx]; rfl
  case waits => simp only [exec, execRead, hrx]

section
variable {s : State} {report : List Byte} {rest : List TxAnswer}

theorem exec_write_done (hreport : Memory.readRange s.outbuf 0 (outLen s.mode) = .ok report) (htx : s.txQ = .done :: rest) :
    exec .write s = .next { s with txQ := rest, trace := .write report :: s.trace, phase := .idle } := by
  simp only [exec, execWrite, htx, hreport]
  rfl

theorem exec_write_failed (hreport : Memory.readRange s.outbuf 0 (outLen s.mode) = .ok report)
    (htx : s.txQ = .failed :: rest) :
    exec .write s = .next { s with txQ := rest, trace := .write report :: s.trace, err := s.err ||| 0b100#3
                                   phase := .close } := by
  simp only [exec, execWrite, htx, hreport]
  rfl

end

/-- Settles O23: the bytes are there, so the read of the report succeeds. -/
theorem writeHandsOverTheWholeReport : Obligations.WriteHandsOverTheWholeReport := by
  intro s rest hlisted
  obtain ⟨report, hreport⟩ := readRange_of_listed hlisted (outLen_le_bufferSize s.mode)
  obtain ⟨hlen, hbytes⟩ := readRange_eq_ok.mp hreport
  refine ⟨report, hlen, fun i hi => ?_, exec_write_done hreport, exec_write_failed hreport, fun htx => ?_⟩
  · simpa using (hbytes i hi).right
  · simp only [exec, execWrite, htx]

/-! ## DECODE (R266) -/

section
variable {s : State} {raw : List Byte}

theorem exec_decode_ok {cs : ControllerState} (hraw : Memory.readRange s.inbuf 0 s.inlen = .ok raw)
    (hcs : decodeReport s.cfg s.mode raw = some cs) : exec .decode s = .next { s with cs := cs, phase := .diff } := by
  simp only [exec, execDecode, hraw, hcs]

theorem exec_decode_malformed (hraw : Memory.readRange s.inbuf 0 s.inlen = .ok raw)
    (hcs : decodeReport s.cfg s.mode raw = none) :
    exec .decode s = .next { s with err := s.err ||| 0b001#3, phase := malformedNext s.cfg.malformedPolicy } := by
  simp only [exec, execDecode, hraw, hcs]
  rfl

end

/-- The length check is all that a decode can fail (spec/40_decoder.md R132, R133). -/
theorem decodeReport_of_lengthOk {cfg : Config} {mode : ConnMode} {raw : List Byte}
    (h : lengthOk cfg mode (payload mode raw) = true) : decodeReport cfg mode raw = some (fieldsOf (payload mode raw)) :=
  if_pos h

/-- A full report passes both length tests. -/
theorem decodeReport_full (cfg : Config) {mode : ConnMode} {raw : List Byte} (hlen : raw.length = inLen mode) :
    decodeReport cfg mode raw = some (fieldsOf (payload mode raw)) := by
  refine decodeReport_of_lengthOk (lengthOk_iff.mpr ?_)
  rw [payload_length, hlen]
  cases mode <;> simp [inLen, inPrefix]

/-- Settles O26: the stored bytes are read, and their number decides. -/
theorem decodeReplacesCsOrAbandonsTheCycle : Obligations.DecodeReplacesCsOrAbandonsTheCycle := by
  refine ⟨fun s hlisted hbound => ?_, fun cfg mode raw hlen => ⟨_, decodeReport_full cfg (mode := mode) ?_⟩⟩
  · obtain ⟨raw, hraw⟩ := readRange_of_listed hlisted hbound
    obtain ⟨hlen, hbytes⟩ := readRange_eq_ok.mp hraw
    have hok := lengthOk_iff (cfg := s.cfg) (mode := s.mode) (P := payload s.mode raw)
    rw [payload_length, hlen] at hok
    refine ⟨raw, hlen, fun i hi => by simpa using (hbytes i hi).right, fun hfields hbattery => ?_, fun hshort => ?_⟩
    · have hcs := decodeReport_of_lengthOk (hok.mpr ⟨hfields, hbattery⟩)
      exact ⟨_, hcs, exec_decode_ok hraw hcs⟩
    · have hcs : decodeReport s.cfg s.mode raw = none := by
        refine if_neg fun h => ?_
        obtain ⟨hfields, hbattery⟩ := hok.mp h
        obtain hlt | ⟨hexposed, hlt⟩ := hshort
        · omega
        · have := hbattery hexposed
          omega
      exact ⟨hcs, (exec_decode_malformed hraw hcs).trans (by cases s.cfg.malformedPolicy <;> rfl)⟩
  · rw [hlen]
    cases mode <;> rfl

end Sys2Proof.Machine
end

section
/-! PROOFS. Whole-machine rules of the sequencer (spec/45_sequencer.md R260, R264, R271, R272): where RUN moves, where `STOPREQ`
is sampled, the hang in READ, and what is left to happen after the end. -/

namespace Sys2Proof.Machine

/-- All a step can do: nothing with no turn left, or what one agent's turn makes of the state without that turn. -/
theorem step_effect {s t : State} (h : step s = .next t) :
    (s.turns = [] ∧ t = s)
    ∨ (∃ rest, s.turns = .caller :: rest ∧ CallerEffect { s with turns := rest } t)
    ∨ (∃ rest, s.turns = .worker :: rest ∧ WorkerEffect { s with turns := rest } t)
    ∨ ∃ f rest, s.turns = .sample f :: rest ∧ t = ({ s with turns := rest } : State).sample f := by
  obtain hidle | ⟨k, rest, hturns, hturn⟩ := step_next_cases h
  · exact .inl hidle
  · cases k with
    | caller => exact .inr (.inl ⟨rest, hturns, callerTurn_effect hturn⟩)
    | worker => exact .inr (.inr (.inl ⟨rest, hturns, workerTurn_effect hturn⟩))
    | sample f => cases hturn; exact .inr (.inr (.inr ⟨f, rest, hturns, rfl⟩))

/-! ## RUN (R260) -/

/-- A move of RUN that the sequencer allows: DETECT enters the loop, START or its DETECT fails, CLOSE leaves the loop. -/
def RunMove (s t : State) : Prop :=
  (s.run = .stoppedInit ∧ s.phase = .detect ∧ t.run = .running)
  ∨ (s.run = .stoppedInit ∧ t.run = .stoppedFinal ∧ t.err ≠ 0#3)
  ∨ (s.run = .running ∧ s.phase = .close ∧ t.run = .stoppedFinal ∧ t.trace = .close :: s.trace)

theorem or_stickyBit_ne_zero : ∀ err : BitVec 3, ∀ e : ErrClass, stickyBit e ≠ 0#3 → err ||| stickyBit e ≠ 0#3 := by
  intro err e
  cases e <;> revert err <;> decide

theorem callerEffect_run {s t : State} (h : CallerEffect s t) : t.run = s.run ∨ RunMove s t := by
  cases h with
  | startUnavailable _ hrun => exact .inr (.inr (.inl ⟨hrun, rfl, or_stickyBit_ne_zero _ _ (by decide)⟩))
  | setter _ hset hexec => obtain ⟨po, resps, rfl⟩ := exec_setter_writes hset hexec; exact .inl rfl
  | _ => exact .inl rfl

theorem workerEffect_run {s t : State} (h : WorkerEffect s t) : t.run = s.run ∨ RunMove s t := by
  cases h with
  | detectIoFails hrun | detectFindsNoMode hrun =>
    exact .inr (.inr (.inl ⟨hrun, rfl, or_stickyBit_ne_zero _ _ (by decide)⟩))
  | detected hrun hphase => exact .inr (.inl ⟨hrun, hphase, rfl⟩)
  | closed hrun hphase => exact .inr (.inr (.inr ⟨hrun, hphase, rfl, rfl⟩))
  | fieldsEncoded => exact .inl (encodeFields_run s)
  | _ => exact .inl rfl

/-- Settles O51, by agent. -/
theorem runMovesForwardOnly : Obligations.RunMovesForwardOnly := by
  intro s t h hne
  obtain ⟨-, rfl⟩ | ⟨rest, -, heffect⟩ | ⟨rest, -, heffect⟩ | ⟨f, rest, -, rfl⟩ := step_effect h
  · exact absurd rfl hne
  · exact (callerEffect_run heffect).resolve_left hne
  · exact (workerEffect_run heffect).resolve_left hne
  · exact absurd (sample_run _ f) hne

/-! ## After the end (R272) -/

/-- Settles O52: the caller moves PO and its port, the worker and a reading of PO nothing. -/
theorem afterTheEndOnlyPendingOutputChanges : Obligations.AfterTheEndOnlyPendingOutputChanges := by
  intro s t hend h
  obtain ⟨hnone, rfl⟩ | ⟨rest, hturns, heffect⟩ | ⟨rest, hturns, heffect⟩ | ⟨f, rest, hturns, rfl⟩ := step_effect h
  · exact ⟨rfl, fun ts hworker => by rw [hnone] at hworker; cases hworker⟩
  · obtain ⟨po, cmds, held, resps, rfl, -⟩ := callerEffect_afterLoop (s := { s with turns := rest }) hend heffect
    exact ⟨rfl, fun ts hworker => by rw [hturns] at hworker; cases hworker⟩
  · obtain rfl := workerEffect_afterLoop (s := { s with turns := rest }) hend heffect
    exact ⟨rfl, fun ts hworker => by rw [hturns] at hworker; cases hworker; rfl⟩
  · rw [sample_of_not_running (s := { s with turns := rest }) (hend.trans_ne nofun)]
    exact ⟨rfl, fun ts hworker => by rw [hturns] at hworker; cases hworker⟩

/-! ## The hang in READ (R271) -/

/-- The worker waits in READ and a STOP waits for the worker, which has had no answer. -/
structure HangsInRead (s : State) : Prop where
  run : s.run = .running
  phase : s.phase = .read
  rxQ : s.rxQ = []
  held : s.held = some .stop

/-- Whichever agent's turn it is, the hang goes on and nothing passes a port. -/
theorem takeTurn_hangsInRead {s : State} (hs : HangsInRead s) (k : Turn) :
    ∃ t, takeTurn k s = .next t ∧ HangsInRead t ∧ t.resps = s.resps ∧ t.trace = s.trace := by
  obtain ⟨hrun, hphase, hrx, hheld⟩ := hs
  cases k with
  | caller =>
    have hstop : callerTurn s = exec .stop s := by simp only [callerTurn, hheld]
    exact ⟨_, hstop.trans (exec_stop_running hrun), ⟨hrun, hphase, hrx, rfl⟩, rfl, rfl⟩
  | worker =>
    have hwaits : exec .read s = .next s := by simp only [exec, execRead, hrx]
    have hread := workerTurn_of_running .read hrun hphase nofun nofun nofun rfl
    exact ⟨s, hread.trans hwaits, ⟨hrun, hphase, hrx, hheld⟩, rfl, rfl⟩
  | sample f => exact ⟨s.sample f, rfl, ⟨by simpa, by simpa, by simpa, by simpa⟩, sample_resps s f, sample_trace s f⟩

/-- Settles O54, by agent. -/
theorem stopHangsWhileReadIsUnanswered : Obligations.StopHangsWhileReadIsUnanswered := by
  intro s hrun hphase hrx hheld
  rw [step_eq]
  split
  · exact ⟨s, rfl, hrun, hphase, hrx, hheld, rfl, rfl⟩
  · next k rest _ =>
    obtain ⟨t, hturn, ⟨hrun, hphase, hrx, hheld⟩, hresps, htrace⟩ :=
      takeTurn_hangsInRead (s := { s with turns := rest }) ⟨hrun, hphase, hrx, hheld⟩ k
    exact ⟨t, hturn, hrun, hphase, hrx, hheld, hresps, htrace⟩

/-! ## Where `STOPREQ` is sampled (R264) -/

/-- The answer with another `STOPREQ` in its next state. -/
def withStopreq (b : Bool) : Answer → Answer
  | .next t => .next { t with stopreq := b }
  | .fault f => .fault f
  | .refused r => .refused r

/-- No micro-operation looks at `STOPREQ`. -/
theorem exec_stopreq {i : Instr} (hi : isCommand i = false) (b : Bool) (s : State) :
    exec i { s with stopreq := b } = withStopreq b (exec i s) := by
  cases i with
  | start | stop | setmotor | setmode | setforce | setled | setpulse | setbright | setplayer | setrgb | setmicled
  | setmicmute => cases hi
  | detect =>
    simp only [exec, execDetect]
    split
    · rfl
    · rfl
    · split <;> rfl
  | read =>
    simp only [exec, execRead]
    split <;> rfl
  | decode =>
    simp only [exec, execDecode]
    split
    · rfl
    · split <;> rfl
  | diff | close => rfl
  | encode =>
    have hfields : ({ s with stopreq := b } : State).encodeFields = { s.encodeFields with stopreq := b } := by
      unfold State.encodeFields
      cases s.mode <;> rfl
    have hsnapshot : ({ s with stopreq := b } : State).snapshot = s.snapshot := rfl
    simp only [exec, execEncode, hsnapshot, hfields]
    split
    · rfl
    · split <;> rfl
    · split <;> rfl
  | write =>
    simp only [exec, execWrite]
    split
    · rfl
    · split
      · rfl
      · split <;> rfl
  | crc32 =>
    simp only [exec, execCrc32]
    split <;> rfl

/-- What the worker selects is never an operation of the caller. -/
theorem selector_isMicroOperation {s : State} {e : Encoded} (h : s.selector = some e) :
    ∃ i, decode e = .ok i ∧ isCommand i = false := by
  unfold State.selector at h
  split at h
  case h_1 => cases h; exact ⟨.detect, rfl, rfl⟩
  case h_4 =>
    split at h
    · next hcalled => cases h; rw [hcalled.2]; exact ⟨.crc32, rfl, rfl⟩
    · cases h; exact ⟨.encode, rfl, rfl⟩
  case h_5 hidle hdetect hencode =>
    cases h
    cases hphase : s.phase with
    | idle => exact absurd hphase hidle
    | detect => exact absurd hphase hdetect
    | encode => exact absurd hphase hencode
    | read | decode | diff | write | close => exact ⟨_, rfl, rfl⟩
  all_goals cases h

/-- Settles O25: the boundary is the one turn of the worker that is not a micro-operation. -/
theorem stopreqIsSampledAtTheCycleBoundaryOnly : Obligations.StopreqIsSampledAtTheCycleBoundaryOnly := by
  refine ⟨fun s ts hturns hrun hphase => ?_, fun s t b hnot h => ?_⟩
  · have hstep := step_boundary hturns hrun hphase
    exact ⟨fun hreq => by rw [hstep, hreq]; rfl, fun hreq => by rw [hstep, hreq]; rfl⟩
  · cases hsel : s.selector with
    | some e =>
      obtain ⟨i, hdecode, hmicro⟩ := selector_isMicroOperation hsel
      rw [workerTurn_of_selector i hsel hdecode] at h
      rw [workerTurn_of_selector (s := { s with stopreq := b }) i hsel hdecode, exec_stopreq hmicro, h]
      rfl
    | none =>
      have hwaits : ∀ s : State, s.selector = none → ¬(s.run = .running ∧ s.phase = .idle) → workerTurn s = .next s :=
        fun s hsel hnot => by simp only [workerTurn, hsel, if_neg hnot]
      rw [hwaits s hsel hnot] at h
      cases h
      exact hwaits { s with stopreq := b } hsel hnot

end Sys2Proof.Machine
end

section
/-! PROOFS. One whole cycle of the worker (spec/45_sequencer.md R263, R267): the steps before ENCODE, the whole ENCODE, and
WRITE. -/

namespace Sys2Proof.Machine

/-- A run of `m` steps that answers goes on from its answer. -/
theorem run_add {s t : State} {m : Nat} (n : Nat) (h : Host.Core.run Sys2Proof.core m s = .next t) :
    Host.Core.run Sys2Proof.core (m + n) s = Host.Core.run Sys2Proof.core n t := by
  induction m generalizing s with
  | zero => cases h; rw [Nat.zero_add]
  | succ m ih =>
    cases hstep : step s with
    | next s' =>
      rw [run_succ_of_step m hstep] at h
      rw [Nat.succ_add, run_succ_of_step (m + n) hstep]
      exact ih h
    | fault f =>
      have hcore : Sys2Proof.core.step s = .fault f := hstep
      simp [Host.Core.run, hcore] at h
    | refused r =>
      have hcore : Sys2Proof.core.step s = .refused r := hstep
      simp [Host.Core.run, hcore] at h

/-! ## The steps of a cycle that goes on -/

section
variable {s : State} {ts : List Turn}

theorem step_read_bytes {bs : List Byte} {rx : List RxAnswer} (hturns : s.turns = .worker :: ts) (hrun : s.run = .running)
    (hphase : s.phase = .read) (hrx : s.rxQ = .bytes bs :: rx) (hlen : bs.length ≤ inLen s.mode) :
    step s = .next { s with turns := ts, rxQ := rx, trace := .read (inLen s.mode) :: s.trace
                            inbuf := Memory.writeBytes s.inbuf 0 bs, inlen := bs.length, phase := .decode } :=
  (step_phase .read hturns hrun hphase (by decide) rfl).trans (exec_read_bytes (s := { s with turns := ts }) hrx hlen)

theorem step_decode_ok {raw : List Byte} {cs : ControllerState} (hturns : s.turns = .worker :: ts)
    (hrun : s.run = .running) (hphase : s.phase = .decode) (hraw : Memory.readRange s.inbuf 0 s.inlen = .ok raw)
    (hcs : decodeReport s.cfg s.mode raw = some cs) : step s = .next { s with turns := ts, cs := cs, phase := .diff } :=
  (step_phase .decode hturns hrun hphase (by decide) rfl).trans (exec_decode_ok (s := { s with turns := ts }) hraw hcs)

theorem step_diff (hturns : s.turns = .worker :: ts) (hrun : s.run = .running) (hphase : s.phase = .diff) :
    step s = .next { s with turns := ts, ev := if s.prevv then evOf s.prev s.cs else 0#25, prev := s.cs, prevv := true
                            phase := .encode } :=
  step_phase .diff hturns hrun hphase (by decide) rfl

theorem step_write_done {report : List Byte} {tx : List TxAnswer} (hturns : s.turns = .worker :: ts)
    (hrun : s.run = .running) (hphase : s.phase = .write) (htx : s.txQ = .done :: tx)
    (hreport : Memory.readRange s.outbuf 0 (outLen s.mode) = .ok report) :
    step s = .next { s with turns := ts, txQ := tx, trace := .write report :: s.trace, phase := .idle } :=
  (step_phase .write hturns hrun hphase (by decide) rfl).trans
    (exec_write_done (s := { s with turns := ts }) hreport htx)

end

/-! ## The whole cycle -/

/-- What the boundary, READ, DECODE and DIFF make of a state at the boundary: a report is stored, decoded and compared. -/
def State.compared (s : State) (bs : List Byte) (rx : List RxAnswer) (ts : List Turn) : State :=
  { s with rxQ := rx, trace := .read (inLen s.mode) :: s.trace, inbuf := Memory.writeBytes s.inbuf 0 bs, inlen := bs.length
           cs := fieldsOf (payload s.mode bs), prev := fieldsOf (payload s.mode bs), prevv := true
           ev := if s.prevv then evOf s.prev (fieldsOf (payload s.mode bs)) else 0#25, phase := .encode, turns := ts }

/-- A full report that READ stores is what DECODE reads, and it decodes. -/
theorem run_compared {s : State} {bs : List Byte} {rx : List RxAnswer} {ts : List Turn} (hrun : s.run = .running)
    (hphase : s.phase = .idle) (hstop : s.stopreq = false) (hrx : s.rxQ = .bytes bs :: rx) (hlen : bs.length = inLen s.mode)
    (hturns : s.turns = List.replicate 4 Turn.worker ++ ts) :
    Host.Core.run Sys2Proof.core 4 s = .next (s.compared bs rx ts) := by
  have hstored := readRange_writeBytes s.inbuf 0 bs (by rw [Nat.zero_add, hlen]; exact inLen_le_bufferSize s.mode)
  have hread : (if s.stopreq then Phase.close else .read) = .read := by rw [hstop]; rfl
  refine Eq.trans (run_succ_of_step 3 (step_boundary hturns hrun hphase)) ?_
  refine Eq.trans (run_succ_of_step 2 (step_read_bytes rfl hrun hread hrx hlen.le)) ?_
  refine Eq.trans (run_succ_of_step 1 (step_decode_ok rfl hrun rfl hstored (decodeReport_full s.cfg hlen))) ?_
  exact Eq.trans (run_succ_of_step 0 (step_diff rfl hrun rfl)) rfl

/-- Settles O60: the first four steps, the whole ENCODE of PO, of which nothing has been read ahead, and WRITE. -/
theorem oneCycleReadsDecodesComparesEncodesWrites : Obligations.OneCycleReadsDecodesComparesEncodesWrites := by
  intro s bs rx tx ts n hinv hrun hphase hstop hrx hlen htx hn hturns
  obtain ⟨henc, hlatched⟩ := hinv.sequencer.noEncode (by simp [hphase])
  obtain ⟨k, hk⟩ : ∃ k, k = if s.mode = .usb then 1 else 3 := ⟨_, rfl⟩
  obtain rfl : n = 4 + (k + 1) := by rw [hn, hk]; split <;> rfl
  have hsplit : s.turns = List.replicate 4 .worker ++ (List.replicate k .worker ++ .worker :: ts) := by
    simp [hturns, List.replicate_add]
  have hcompared := run_compared hrun hphase hstop hrx hlen hsplit
  obtain ⟨t, hencode, ht, hreport, -⟩ := wholeEncodeLeavesTheReportInOutbuf (s.compared bs rx _) (.worker :: ts) k
    (configOk_outMap hinv.config) (configOk_cover hinv.config) hrun rfl henc hk rfl
  have hpo : (s.compared bs rx (List.replicate k .worker ++ .worker :: ts)).snapshot = s.po := by
    simp only [State.snapshot, State.compared, hlatched, List.foldl_nil]
  rw [hpo] at hreport
  obtain ⟨m, rfl⟩ : ∃ m, t = { s.compared bs rx (.worker :: ts) with
      outbuf := m, latched := [], latch := PendingOutput.zero, phase := .write } := ⟨_, ht⟩
  refine ⟨_, Eq.trans (run_add (k + 1) hcompared) (Eq.trans (run_add 1 hencode) (Eq.trans (run_succ_of_step 0
    (step_write_done rfl hrun rfl htx hreport)) rfl)), ?_⟩
  exact ⟨hrun, rfl, rfl, rfl, rfl, rfl, rfl, decodeReport_full s.cfg hlen, rfl, rfl, rfl, rfl⟩

end Sys2Proof.Machine
end

section
/-! PROOFS. The ports of the agents (spec/60_exceptions.md R303, R311): what a turn of either agent leaves to the other, and the
command a free port performs. -/

namespace Sys2Proof.Machine

/-- A turn of the caller writes PO, the sequencer's registers and its own command port, and nothing else. -/
theorem callerEffect_writes {s t : State} (h : CallerEffect s t) :
    ∃ po run phase stopreq err cmds held resps,
      t = { s with po := po, run := run, phase := phase, stopreq := stopreq, err := err
                   cmds := cmds, held := held, resps := resps } := by
  cases h with
  | setter _ hset hexec =>
    obtain ⟨po, resps, rfl⟩ := exec_setter_writes hset hexec
    exact ⟨po, _, _, _, _, _, _, resps, rfl⟩
  | _ => exact ⟨_, _, _, _, _, _, _, _, rfl⟩

/-- What the caller owns, PO, `STOPREQ` and the words it will present, the worker leaves as it is. -/
theorem workerEffect_keepsCallersFields {s t : State} (h : WorkerEffect s t) :
    t.po = s.po ∧ t.stopreq = s.stopreq ∧ t.cmds = s.cmds := by
  cases h with
  | fieldsEncoded => exact ⟨encodeFields_po s, encodeFields_stopreq s, encodeFields_cmds s⟩
  | _ => exact ⟨rfl, rfl, rfl⟩

/-- Settles O55, by agent: the caller's writes are listed, and CS, PREV, EV, MODE, the buffers and the transport are not among
them. -/
theorem agentsKeepToTheirRights : Obligations.AgentsKeepToTheirRights := by
  refine ⟨fun s t h => ?_, fun s t h => workerEffect_keepsCallersFields (workerTurn_effect h)⟩
  obtain ⟨po, run, phase, stopreq, err, cmds, held, resps, rfl⟩ := callerEffect_writes (callerTurn_effect h)
  exact ⟨rfl, rfl, rfl, rfl, rfl, rfl, fun _ => rfl, fun _ => rfl, rfl, rfl, rfl, rfl⟩

/-- Settles O8: with the port free nothing waits, so the presented word is the one decoded. -/
theorem callerStepRunsTheDecodedCommand : Obligations.CallerStepRunsTheDecodedCommand :=
  fun _ _ _ _ _ => step_command

end Sys2Proof.Machine
end
